-- ==== Sys2Proof/Word.lean ====
section
/-! DEFINITION. The words of the block. It has no memory and no machine word: each register, code and operand has a
width of its own (10_state.md R14, 30_encoding.md R48), and each width gets a name here. -/

namespace Sys2Proof

/-- The event word `EV`, 18 bits: `op` in bits 17:16, `arg` in bits 15:0 (R49). -/
abbrev EventWord := BitVec 18

/-- The field `EV.op` (R49). -/
abbrev EventOp := BitVec 2

/-- The field `EV.arg` (R49); also the port `cmd_arg` (R31). -/
abbrev EventArg := BitVec 16

/-- HallState: bit 0 is sensor A, bit 1 is B, bit 2 is C (R11, R52). -/
abbrev HallCode := BitVec 3

/-- A sector code: 0 is "no defined sector", 1 to 6 are the commutation sectors, 7 is never produced (R53). -/
abbrev SectorCode := BitVec 3

/-- A channel code: Y = 0, B = 1, G = 2, and 3 is unused (R54). -/
abbrev ChannelCode := BitVec 2

/-- `st.dutyCommand`, 16 bits signed two's complement (R14, R16). -/
abbrev DutyWord := BitVec 16

/-- `st.acc`, 32 bits signed two's complement (`ACC_WIDTH`, R9, R17). -/
abbrev AccWord := BitVec 32

/-- A compare register, 16 bits unsigned (`CMP_WIDTH`, R9, R21). -/
abbrev CompareWord := BitVec 16

/-- A speed register, 32 bits unsigned (`CNT_WIDTH`, R9, R19, R20). -/
abbrev TickWord := BitVec 32

end Sys2Proof
end

