-- ==== Sys2Proof/Machine/Arith.lean ====
section
/-! DEFINITION. The arithmetic primitives of 00_scope.md R12, over the mathematical integers. -/

namespace Sys2Proof.Machine

/-- `sat(x, lo, hi)` (R12). -/
def sat (x lo hi : Int) : Int :=
  if x < lo then lo else if hi < x then hi else x

/-- `a >> n`, the arithmetic shift: `floor(a / 2^n)`, rounding toward minus infinity (R12, R70; the spec's decision
D8). Division of integers by a positive number rounds down in Lean. -/
def asr (a : Int) (n : Nat) : Int := a / ((2 ^ n : Nat) : Int)

end Sys2Proof.Machine
end

