-- ==== Sys2Proof/Machine/DutyFilter.lean ====
section
/-! DEFINITION. `FILT`, the single-pole duty filter (41_iir_duty_filter.md). -/

namespace Sys2Proof.Machine

/-- `newAcc` of `FILT(acc, input)` (R69). -/
def filtAcc (shift : Nat) (acc input : Int) : Int := acc - asr acc shift + input

/-- `FILT(acc, input) -> (newAcc, filteredDuty)`: the output is taken from the new accumulator (R69). -/
def filt (shift : Nat) (acc input : Int) : Int × Int :=
  (filtAcc shift acc input, asr (filtAcc shift acc input) shift)

end Sys2Proof.Machine
end

