-- ==== Sys2Proof/Config.lean ====
section
/-! DEFINITION. What one implementation fixes: the host-provided constants (00_scope.md R7), and the two values the
spec leaves free, which are constants with no body. -/

namespace Sys2Proof

/-- The host-provided constants (R7). `DEAD_TIME` is not one of the block's: no rule reads it. -/
structure Config where
  /-- `PERIOD`, the PWM full-scale count: OPEN in the spec (R7, 92_eei_decisions.md D10). -/
  period      : Nat
  /-- `GUARD`, which one passage of the source calls `CLAMP_LOW` (R7, 90_conflicts.md C2). -/
  guard       : Nat
  /-- `FILTER_SHIFT`, called S in the rules of the filter (R7). -/
  filterShift : Nat
deriving DecidableEq, Repr

/-- The constants a board has where it states no others: `FILTER_SHIFT` 12 and `GUARD` 10 are the source's defaults
(R7). The source gives no `PERIOD`: DESIGN CHOICE, log entry 2, the spec's own default for tests, 2000. -/
def Config.standard : Config := { period := 2000, guard := 10, filterShift := 12 }

/-- FREE VALUE, log entry 3. What a compare register holds between a reset and the first `TICK` after it: unspecified
(R34, 93_implementation_defined.md U5). The first argument is the draw's number, the second the channel code. -/
opaque Config.compareAtReset : Nat → Nat → CompareWord

/-- FREE VALUE, log entry 4. Which event the agents issue next when nothing has been queued: no rule constrains the
order and the number of events, nor the Hall bits of a `TICK` (R10, R42, R60, 93_implementation_defined.md U6, U14,
U15). The argument is the draw's number. -/
opaque Config.agentEvent : Nat → EventWord

end Sys2Proof
end

