-- ==== Sys2Proof/Syntax.lean ====
section
/-! DEFINITION. The operations, one constructor for each row of spec/opcode_table.json: the four events, and the codes
of the three code spaces that the datapath decodes (30_encoding.md R48 to R54). -/

namespace Sys2Proof

/-- The three legs, always in the order Y, B, G (R54). -/
inductive Channel where
  | y
  | b
  | g
deriving DecidableEq, Repr

/-- The operations. -/
inductive Instr where
  /-- `TICK`, with the Hall inputs as they read during it (R105). -/
  | tick (hall : HallCode)
  /-- `SETEN`, true = enable (R109). -/
  | seten (b : Bool)
  /-- `SETDUTY`, with the caller's integer; the operand that an event word carries is 16 bits wide (R51, R113, R114). -/
  | setduty (v : Int)
  /-- `GETSPEED` (R115). -/
  | getspeed
  /-- Hall code 0, no sensor active (R52, R61). -/
  | hall0
  /-- Hall code 1, A active. -/
  | hall1
  /-- Hall code 2, B active. -/
  | hall2
  /-- Hall code 3, A and B active. -/
  | hall3
  /-- Hall code 4, C active. -/
  | hall4
  /-- Hall code 5, A and C active. -/
  | hall5
  /-- Hall code 6, B and C active. -/
  | hall6
  /-- Hall code 7, all three active. -/
  | hall7
  /-- Sector code 0, "no defined sector" (R53, R81). -/
  | sector0
  /-- Sector code 1, the speed estimator's reference. -/
  | sector1
  /-- Sector code 2. -/
  | sector2
  /-- Sector code 3. -/
  | sector3
  /-- Sector code 4. -/
  | sector4
  /-- Sector code 5. -/
  | sector5
  /-- Sector code 6. -/
  | sector6
  /-- Sector code 7, never produced, in the mixer's row "other" (R53, R84). -/
  | sector7
  /-- Channel code 0, leg Y (R54). -/
  | channelY
  /-- Channel code 1, leg B. -/
  | channelB
  /-- Channel code 2, leg G. -/
  | channelG
deriving DecidableEq, Repr

/-- Is the operation one of the four events (R3, R50)? The code rows are not events (R54, R59). -/
def Instr.isEvent : Instr → Bool
  | .tick _ => true
  | .seten _ => true
  | .setduty _ => true
  | .getspeed => true
  | .hall0 => false
  | .hall1 => false
  | .hall2 => false
  | .hall3 => false
  | .hall4 => false
  | .hall5 => false
  | .hall6 => false
  | .hall7 => false
  | .sector0 => false
  | .sector1 => false
  | .sector2 => false
  | .sector3 => false
  | .sector4 => false
  | .sector5 => false
  | .sector6 => false
  | .sector7 => false
  | .channelY => false
  | .channelB => false
  | .channelG => false

/-- A word as it reaches a decoder. Each code space has wires and a decoder of its own (R48), so a word comes with
its space: the numbers alone do not tell a Hall code from a sector code. -/
inductive CodeWord where
  /-- An event word (R49). -/
  | event (w : EventWord)
  /-- A Hall code, on the way to `HALLDEC` (R52). -/
  | hall (c : HallCode)
  /-- A sector code, on the way to `MIX` and `SPEED` (R53). -/
  | sector (c : SectorCode)
  /-- A channel code, on the way to the compare outputs (R54). -/
  | channel (c : ChannelCode)
  /-- A number that is a word of none of the four widths: `nbits` bits holding `w`. -/
  | unframed (nbits w : Nat)
deriving DecidableEq, Repr

end Sys2Proof
end

