-- ==== Sys2Proof/WellFormed.lean ====
section
/-! DEFINITION. Which configurations the block is specified for (00_scope.md R8), and which operands an operation can
carry (30_encoding.md R51). -/

namespace Sys2Proof

/-- A well-formed configuration (R8, D9, D10, D12): the bound 21 is the largest shift for which a 32-bit accumulator
cannot overflow (R74), and `2 * GUARD ≤ PERIOD` leaves the clamp's interval non-empty. -/
abbrev Config.wf (c : Config) : Prop :=
  c.filterShift ≤ 21 ∧ 1 ≤ c.guard ∧ 2 * c.guard ≤ c.period ∧ c.period ≤ 65535

/-- The operand of `SETDUTY` is a signed 16-bit integer (R51, R58). Every other operand has the width of its field,
so nothing is left to check. -/
def Instr.wfBool : Instr → Bool
  | .setduty v => decide (-32768 ≤ v) && decide (v ≤ 32767)
  | .tick _ => true
  | .seten _ => true
  | .getspeed => true
  | .hall0 => true
  | .hall1 => true
  | .hall2 => true
  | .hall3 => true
  | .hall4 => true
  | .hall5 => true
  | .hall6 => true
  | .hall7 => true
  | .sector0 => true
  | .sector1 => true
  | .sector2 => true
  | .sector3 => true
  | .sector4 => true
  | .sector5 => true
  | .sector6 => true
  | .sector7 => true
  | .channelY => true
  | .channelB => true
  | .channelG => true

/-- A well-formed operation: one that a word of its encoding can carry. -/
abbrev Instr.wf (i : Instr) : Prop := i.wfBool = true

end Sys2Proof
end

