-- ==== Sys2Proof/Decode.lean ====
section
/-! DEFINITION. The decoders of the four code spaces, the encoder, and the opcode table as data (30_encoding.md R48 to
R56). Decoding has no mode: the state changes what `TICK` does, never how a word decodes (R57). -/

namespace Sys2Proof

/-- Why a word is refused. All event words, Hall codes and sector codes decode (R50, R56). -/
inductive DecodeError where
  /-- Channel code 3, which is unused (R54). -/
  | unusedChannelCode
  /-- A number that is a word of no code space. -/
  | notACodeWord
deriving DecidableEq, Repr

/-- `EV.op`, bits 17:16 (R49). -/
def opField (w : EventWord) : EventOp := w.extractLsb' 16 2

/-- `EV.arg`, bits 15:0 (R49). -/
def argField (w : EventWord) : EventArg := w.extractLsb' 0 16

/-- The operand of `TICK`: `arg[2:0]`, with `arg[0]` = Hall A (R51). -/
def hallOperand (arg : EventArg) : HallCode := arg.extractLsb' 0 3

/-- The operand of `SETEN`: `arg[0]`, 1 = true (R51, D36). -/
def enableOperand (arg : EventArg) : Bool := arg.getLsbD 0

/-- The operand of `SETDUTY`: `sext_16(arg[15:0])` (R51). -/
def dutyOperand (arg : EventArg) : Int := arg.toInt

/-- An event word's operation. All four values of `op` are assigned and the unused bits of `arg` are ignored, so every
word decodes (R50, R56). -/
def decodeEvent (w : EventWord) : Instr :=
  match (opField w).toNat with
  | 0 => .tick (hallOperand (argField w))
  | 1 => .seten (enableOperand (argField w))
  | 2 => .setduty (dutyOperand (argField w))
  | _ => .getspeed

/-- A Hall code's row (R52). -/
def decodeHall (c : HallCode) : Instr :=
  match c.toNat with
  | 0 => .hall0
  | 1 => .hall1
  | 2 => .hall2
  | 3 => .hall3
  | 4 => .hall4
  | 5 => .hall5
  | 6 => .hall6
  | _ => .hall7

/-- A sector code's row (R53). -/
def decodeSector (c : SectorCode) : Instr :=
  match c.toNat with
  | 0 => .sector0
  | 1 => .sector1
  | 2 => .sector2
  | 3 => .sector3
  | 4 => .sector4
  | 5 => .sector5
  | 6 => .sector6
  | _ => .sector7

/-- A channel code's row; code 3 is unused (R54). -/
def decodeChannel (c : ChannelCode) : Except DecodeError Instr :=
  match c.toNat with
  | 0 => .ok .channelY
  | 1 => .ok .channelB
  | 2 => .ok .channelG
  | _ => .error .unusedChannelCode

/-- The decoder, total on every word. -/
def decode : CodeWord → Except DecodeError Instr
  | .event w => .ok (decodeEvent w)
  | .hall c => .ok (decodeHall c)
  | .sector c => .ok (decodeSector c)
  | .channel c => decodeChannel c
  | .unframed _ _ => .error .notACodeWord

/-- An event word from its two fields (R49). -/
def eventWord (op : EventOp) (arg : EventArg) : EventWord := op ++ arg

/-- The encoder. The ignored bits of `arg` are written as zeros. -/
def encode : Instr → CodeWord
  | .tick h => .event (eventWord 0 (h.setWidth 16))
  | .seten b => .event (eventWord 1 (if b then 1 else 0))
  | .setduty v => .event (eventWord 2 (BitVec.ofInt 16 v))
  | .getspeed => .event (eventWord 3 0)
  | .hall0 => .hall 0
  | .hall1 => .hall 1
  | .hall2 => .hall 2
  | .hall3 => .hall 3
  | .hall4 => .hall 4
  | .hall5 => .hall 5
  | .hall6 => .hall 6
  | .hall7 => .hall 7
  | .sector0 => .sector 0
  | .sector1 => .sector 1
  | .sector2 => .sector 2
  | .sector3 => .sector 3
  | .sector4 => .sector 4
  | .sector5 => .sector 5
  | .sector6 => .sector 6
  | .sector7 => .sector 7
  | .channelY => .channel 0
  | .channelB => .channel 1
  | .channelG => .channel 2

/-- The code word that a number of `nbits` bits stands for: more than 8 bits is an event word, 3 to 8 a Hall code, up
to 2 a channel code. A Hall code and a sector code are the same three bits, and rounded up to a whole byte a channel
code looks like them too, so a number alone names the Hall code: DESIGN CHOICE, log entry 5. Bits above the space's
width must be 0. -/
def tableCodeWord (nbits w : Nat) : CodeWord :=
  if 8 < nbits then
    if w < 262144 then .event (BitVec.ofNat 18 w) else .unframed nbits w
  else if 2 < nbits then
    if w < 8 then .hall (BitVec.ofNat 3 w) else .unframed nbits w
  else
    if w < 4 then .channel (BitVec.ofNat 2 w) else .unframed nbits w

/-- The operation that the decoder reads from a number of the opcode table. -/
def decodeTableWord (nbits w : Nat) : Option Instr :=
  match decode (tableCodeWord nbits w) with
  | .ok i => some i
  | .error _ => none

/-- The four code spaces of the opcode table, by its "format" (R48). -/
inductive CodeSpace where
  | event
  | hall
  | sector
  | channel
deriving DecidableEq, Repr

/-- A row of the opcode table: a word `w` of the row's space is the row's when `w &&& mask = pattern`. -/
structure TableRow where
  mnemonic : String
  space    : CodeSpace
  width    : Nat
  mask     : Nat
  pattern  : Nat
deriving DecidableEq, Repr

/-- A row of the event word: `op` fixed, `arg` free (R49, R50). -/
def eventRow (mnemonic : String) (op : Nat) : TableRow :=
  { mnemonic := mnemonic, space := .event, width := 18, mask := 0x30000, pattern := op * 0x10000 }

/-- A row of a three-bit code. -/
def codeRow (mnemonic : String) (space : CodeSpace) (code : Nat) : TableRow :=
  { mnemonic := mnemonic, space := space, width := 3, mask := 7, pattern := code }

/-- A row of the two-bit channel code (R54). -/
def channelRow (mnemonic : String) (code : Nat) : TableRow :=
  { mnemonic := mnemonic, space := .channel, width := 2, mask := 3, pattern := code }

/-- The opcode table's row of an operation. -/
def tableRow : Instr → TableRow
  | .tick _ => eventRow "TICK" 0
  | .seten _ => eventRow "SETEN" 1
  | .setduty _ => eventRow "SETDUTY" 2
  | .getspeed => eventRow "GETSPEED" 3
  | .hall0 => codeRow "HALL_0" .hall 0
  | .hall1 => codeRow "HALL_1" .hall 1
  | .hall2 => codeRow "HALL_2" .hall 2
  | .hall3 => codeRow "HALL_3" .hall 3
  | .hall4 => codeRow "HALL_4" .hall 4
  | .hall5 => codeRow "HALL_5" .hall 5
  | .hall6 => codeRow "HALL_6" .hall 6
  | .hall7 => codeRow "HALL_7" .hall 7
  | .sector0 => codeRow "SECTOR_0" .sector 0
  | .sector1 => codeRow "SECTOR_1" .sector 1
  | .sector2 => codeRow "SECTOR_2" .sector 2
  | .sector3 => codeRow "SECTOR_3" .sector 3
  | .sector4 => codeRow "SECTOR_4" .sector 4
  | .sector5 => codeRow "SECTOR_5" .sector 5
  | .sector6 => codeRow "SECTOR_6" .sector 6
  | .sector7 => codeRow "SECTOR_7" .sector 7
  | .channelY => channelRow "CHANNEL_Y" 0
  | .channelB => channelRow "CHANNEL_B" 1
  | .channelG => channelRow "CHANNEL_G" 2

/-- The space and the number of a code word; `none` for a number that is no word. -/
def CodeWord.number : CodeWord → Option (CodeSpace × Nat)
  | .event w => some (.event, w.toNat)
  | .hall c => some (.hall, c.toNat)
  | .sector c => some (.sector, c.toNat)
  | .channel c => some (.channel, c.toNat)
  | .unframed _ _ => none

/-- Is a code word one of a row's: of its space, with the row's fixed bits? -/
def TableRow.holds (r : TableRow) (c : CodeWord) : Prop :=
  ∃ n, c.number = some (r.space, n) ∧ n &&& r.mask = r.pattern

end Sys2Proof
end

