-- ==== Sys2Proof/Machine/State.lean ====
section
/-! DEFINITION. The state: the ten registers of 10_state.md R14, the configuration of the run, and the model's own
fields (what an operation returned, and where the next event comes from). The block has no memory (20_memory.md R38)
and no program counter (R30). -/

namespace Sys2Proof.Machine

/-- Why a step stops with a fault: it never does. No operation of the block raises (60_exceptions.md R120, R121), so
this type has no constructor. -/
inductive Fault where
deriving DecidableEq, Repr

/-- Why a step is refused. -/
inductive Refusal where
  /-- Raised by an arm of `exec` that has no meaning yet. Safe: nothing can be proved of a state after it. -/
  | notModelled (mnemonic : String)
  /-- Raised by every operation when the configuration is not well formed: the block is specified for no such
  configuration (00_scope.md R8, 92_eei_decisions.md D13). Safe: the machine has no step there. -/
  | illFormedConfiguration
  /-- Raised by `step` when the next word is channel code 3, which is unused (30_encoding.md R54). Safe: the spec gives
  the code no effect. -/
  | unusedChannelCode
  /-- Raised by `step` when the next number is a word of no code space. Safe: the spec gives it no meaning. -/
  | notACodeWord
deriving DecidableEq, Repr

/-- PhaseValues: the signed drive of the three legs, before centring (42_phase_mixer_6step.md R80). -/
structure PhaseValues where
  y : Int
  b : Int
  g : Int
deriving DecidableEq, Repr

/-- What an operation gives back to the one who issued it. The model's own, log entry 9: the block keeps no such
register. -/
inductive Reply where
  /-- `TICK`, `SETEN` and `SETDUTY` return nothing (45_controller_ops.md R105, R109, R113). -/
  | nothing
  /-- What `GETSPEED` returns (R115). -/
  | speedPeriodTicks (v : TickWord)
  /-- What `HALLDEC` makes of a Hall code (40_hall_commutator.md R61). -/
  | sector (c : SectorCode)
  /-- What `MIX` makes of a sector code, and whether `SPEED` takes it for its reference (R81, R97). -/
  | pattern (p : PhaseValues) (reference : Bool)
  /-- The compare output that a channel code names (30_encoding.md R54). -/
  | compare (ch : Channel) (v : CompareWord)
deriving DecidableEq, Repr

/-- The state. -/
@[ext]
structure State where
  /-- The run's constants; no operation changes them (R7, R155). Log entry 1. -/
  cfg              : Config
  /-- `st.enabled`: false = Disabled, true = Enabled (R15). -/
  enabled          : Bool
  /-- `st.dutyCommand` (R16). -/
  dutyCommand      : DutyWord
  /-- `st.acc` (R17). -/
  acc              : AccWord
  /-- `st.lastSector` (R18). -/
  lastSector       : SectorCode
  /-- `st.speedTickCount` (R19). -/
  speedTickCount   : TickWord
  /-- `st.speedPeriodTicks` (R20). -/
  speedPeriodTicks : TickWord
  /-- `out.cmp_y` (R21). -/
  cmpY             : CompareWord
  /-- `out.cmp_b` (R21). -/
  cmpB             : CompareWord
  /-- `out.cmp_g` (R21). -/
  cmpG             : CompareWord
  /-- Have the compare registers been written since reset? The spec's "unwritten" is `false` (R25 I6, R146). -/
  cmpWritten       : Bool
  /-- `out.pwm_out_en` (R22). -/
  pwmOutEn         : Bool
  /-- The model's own: what the last operation returned. Log entry 9. -/
  reply            : Reply
  /-- The model's own: the words that have been issued and not yet executed, the next one first. Log entry 4. -/
  inbox            : List CodeWord
  /-- The model's own: the number of the next draw of a free value. Log entries 3 and 4. -/
  drawn            : Nat
deriving DecidableEq, Repr

/-- The reset state under a configuration (R34, R140). The compare registers are unspecified after reset, so they hold
the free values of draw `n` (log entry 3). The configuration may be any, an ill-formed one too (log entry 20). -/
def State.resetWith (c : Config) (n : Nat) : State where
  cfg := c
  enabled := false
  dutyCommand := 0
  acc := 0
  lastSector := 0
  speedTickCount := 0
  speedPeriodTicks := 0
  cmpY := Config.compareAtReset n 0
  cmpB := Config.compareAtReset n 1
  cmpG := Config.compareAtReset n 2
  cmpWritten := false
  pwmOutEn := false
  reply := .nothing
  inbox := []
  drawn := n + 1

/-- The machine right after reset, on a board with the standard constants (log entry 2). -/
def State.reset : State := State.resetWith Config.standard 0

end Sys2Proof.Machine
end

