-- ==== Sys2Proof/Machine/Ops.lean ====
section
/-! DEFINITION. The named operations over the registers, and how an operation ends. There is no operation here that
takes an exception or returns from one, because the block has neither (60_exceptions.md R120, R126, R136), and none
over memory (20_memory.md R38). -/

namespace Sys2Proof.Machine

/-- Write `st.acc`. -/
def State.setAcc (v : AccWord) (s : State) : State := { s with acc := v }

/-- Write `st.dutyCommand`. -/
def State.setDuty (v : DutyWord) (s : State) : State := { s with dutyCommand := v }

/-- Write the three registers of the speed estimator (R97). -/
def State.setSpeed (cnt per : TickWord) (last : SectorCode) (s : State) : State :=
  { s with speedTickCount := cnt, speedPeriodTicks := per, lastSector := last }

/-- `enablePwmOutput()` and `disablePwmOutput()`: write `out.pwm_out_en` (R13, R22). -/
def State.setOutputStage (b : Bool) (s : State) : State := { s with pwmOutEn := b }

/-- `setPhaseCompare(channel, value)`: write one leg's compare register (R13, R21, R54). -/
def State.setPhaseCompare (ch : Channel) (v : CompareWord) (s : State) : State :=
  match ch with
  | .y => { s with cmpY := v }
  | .b => { s with cmpB := v }
  | .g => { s with cmpG := v }

/-- The value at one leg's compare output. -/
def State.phaseCompare (ch : Channel) (s : State) : CompareWord :=
  match ch with
  | .y => s.cmpY
  | .b => s.cmpB
  | .g => s.cmpG

/-- From now on the compare registers hold values that the block has written (R25 I6). -/
def State.markCompareWritten (s : State) : State := { s with cmpWritten := true }

/-- Give something back to the issuer (log entry 9). -/
def State.setReply (r : Reply) (s : State) : State := { s with reply := r }

/-- How every operation ends: with its next state and its reply. Under an ill-formed configuration there is no step
(00_scope.md R8, D13; log entry 10). -/
def complete (s t : State) (r : Reply) : Host.Outcome State Fault Refusal :=
  if s.cfg.wf then .next (t.setReply r) else .refused .illFormedConfiguration

/-- The next word to execute, and the state without it: the oldest of the queue, and with an empty queue whatever
event the agents issue, a free value (R42; log entry 4). -/
def takeWord (s : State) : CodeWord × State :=
  match s.inbox with
  | w :: rest => (w, { s with inbox := rest })
  | [] => (.event (Config.agentEvent s.drawn), { s with drawn := s.drawn + 1 })

/-- The refusal of a word that does not decode. -/
def refusalOf : DecodeError → Refusal
  | .unusedChannelCode => .unusedChannelCode
  | .notACodeWord => .notACodeWord

end Sys2Proof.Machine
end

