-- ==== Sys2Proof/Machine/Flags.lean ====
section
/-! DEFINITION. The block's one flag, `st.enabled`. There are no condition codes, and no saturation flag is kept
(10_state.md R27). -/

namespace Sys2Proof.Machine

/-- Write `st.enabled` (R15). Only `SETEN` does. -/
def State.setEnabledFlag (b : Bool) (s : State) : State := { s with enabled := b }

end Sys2Proof.Machine
end

