-- ==== Sys2Proof/Machine/Operands.lean ====
section
/-! DEFINITION. The values that the operations compute with: the sampled Hall bits, the clamped duty command, and the
registers read as integers. -/

namespace Sys2Proof.Machine

/-- The sampled Hall bits as one code: A weighs 1, B weighs 2, C weighs 4 (40_hall_commutator.md R60). -/
def packHall (a b c : Bool) : HallCode :=
  BitVec.ofNat 3 (1 * a.toNat + 2 * b.toNat + 4 * c.toNat)

/-- `DUTY_MIN` (R9). -/
def dutyMin : Int := -1000

/-- `DUTY_MAX` (R9). -/
def dutyMax : Int := 1000

/-- The value that `SETDUTY` stores. The caller's integer is clamped first and narrowed second (R113, R114). -/
def clampDuty (v : Int) : DutyWord := BitVec.ofInt 16 (sat v dutyMin dutyMax)

/-- `st.dutyCommand` as the filter reads it. -/
def State.duty (s : State) : Int := s.dutyCommand.toInt

/-- `filteredDuty`, a view of the accumulator and no register (10_state.md R24). -/
def State.filteredDuty (s : State) : Int := asr s.acc.toInt s.cfg.filterShift

end Sys2Proof.Machine
end

