-- ==== Sys2Proof/Machine/HallDecoder.lean ====
section
/-! DEFINITION. `HALLDEC`, and the rows of the Hall code (40_hall_commutator.md). -/

namespace Sys2Proof.Machine

/-- `HALL_TO_SECTOR`, the commutation table (R9, R61). -/
def hallToSector : List SectorCode := [0, 3, 5, 4, 1, 2, 6, 0]

/-- `HALLDEC(hall)`: a pure table lookup, with no memory of earlier samples (R61, R65). -/
def halldec (hall : HallCode) : SectorCode := hallToSector.getD hall.toNat 0

/-- The Hall code of a sector, the inverse of the table on the sectors 1 to 6; for sector 0 the notation takes code 0
(R59, R62). -/
def hallOfSector (sector : SectorCode) : HallCode :=
  match sector.toNat with
  | 1 => 4
  | 2 => 5
  | 3 => 1
  | 4 => 3
  | 5 => 2
  | 6 => 6
  | _ => 0

/-- A row of the Hall code, executed alone: the sector it decodes to is given back, and no register is written, since
`HALLDEC` writes none (R61). DESIGN CHOICE, log entry 6: outside a `TICK` the block receives no Hall code. -/
def replySector (hall : HallCode) (s : State) : Host.Outcome State Fault Refusal :=
  complete s s (.sector (halldec hall))

/-- Hall code 0 (R61). -/
def execHall0 (s : State) : Host.Outcome State Fault Refusal := replySector 0 s

/-- Hall code 1 (R61). -/
def execHall1 (s : State) : Host.Outcome State Fault Refusal := replySector 1 s

/-- Hall code 2 (R61). -/
def execHall2 (s : State) : Host.Outcome State Fault Refusal := replySector 2 s

/-- Hall code 3 (R61). -/
def execHall3 (s : State) : Host.Outcome State Fault Refusal := replySector 3 s

/-- Hall code 4 (R61). -/
def execHall4 (s : State) : Host.Outcome State Fault Refusal := replySector 4 s

/-- Hall code 5 (R61). -/
def execHall5 (s : State) : Host.Outcome State Fault Refusal := replySector 5 s

/-- Hall code 6 (R61). -/
def execHall6 (s : State) : Host.Outcome State Fault Refusal := replySector 6 s

/-- Hall code 7 (R61). -/
def execHall7 (s : State) : Host.Outcome State Fault Refusal := replySector 7 s

end Sys2Proof.Machine
end

