-- ==== Sys2Proof/Machine/PwmClamper.lean ====
section
/-! DEFINITION. `CLAMP`, the writing of the three compare registers, and the rows of the channel code
(43_pwm_clamper.md, 30_encoding.md R54). -/

namespace Sys2Proof.Machine

/-- `PERIOD div 2`, rounding down for an odd `PERIOD` (R12, R89; the spec's decision D11). -/
def centreOf (c : Config) : Int := ((c.period / 2 : Nat) : Int)

/-- `CLAMP(v) = sat(v + PERIOD div 2, GUARD, PERIOD - GUARD)` (R89). Nothing scales the phase value (R93). -/
def clamp (c : Config) (v : Int) : Int :=
  sat (v + centreOf c) (c.guard : Int) ((c.period : Int) - (c.guard : Int))

/-- `CLAMP(v)` as the 16-bit word that goes into a compare register. -/
def compareWord (c : Config) (v : Int) : CompareWord := BitVec.ofInt 16 (clamp c v)

/-- Clamp the three phase values, in the order Y, B, G, and write the three compare registers as one update (R95,
R106; the spec's decision D27). -/
def presentPhases (p : PhaseValues) (s : State) : State :=
  (((s.setPhaseCompare .y (compareWord s.cfg p.y)).setPhaseCompare .b (compareWord s.cfg p.b)).setPhaseCompare .g
    (compareWord s.cfg p.g)).markCompareWritten

/-- A row of the channel code, executed alone: the leg's compare output is given back, and nothing is written, since
only a `TICK` writes a compare register (R21, R26). DESIGN CHOICE, log entry 8: the block receives no channel code
(R54). -/
def replyCompare (ch : Channel) (s : State) : Host.Outcome State Fault Refusal :=
  complete s s (.compare ch (s.phaseCompare ch))

/-- Channel code 0, leg Y, compare output `out.cmp_y` (R54). -/
def execChannelY (s : State) : Host.Outcome State Fault Refusal := replyCompare .y s

/-- Channel code 1, leg B, compare output `out.cmp_b` (R54). -/
def execChannelB (s : State) : Host.Outcome State Fault Refusal := replyCompare .b s

/-- Channel code 2, leg G, compare output `out.cmp_g` (R54). -/
def execChannelG (s : State) : Host.Outcome State Fault Refusal := replyCompare .g s

end Sys2Proof.Machine
end

