-- ==== Sys2Proof/Machine/PhaseMixer.lean ====
section
/-! DEFINITION. `MIX`, and the rows of the sector code (42_phase_mixer_6step.md). -/

namespace Sys2Proof.Machine

/-- `MIX(pwm, sector)`, the fixed six-step table (R81). -/
def mix (pwm : Int) (sector : SectorCode) : PhaseValues :=
  match sector.toNat with
  | 1 => { y := 0,    b := pwm,  g := -pwm }
  | 2 => { y := -pwm, b := pwm,  g := 0 }
  | 3 => { y := -pwm, b := 0,    g := pwm }
  | 4 => { y := 0,    b := -pwm, g := pwm }
  | 5 => { y := pwm,  b := -pwm, g := 0 }
  | 6 => { y := pwm,  b := 0,    g := -pwm }
  | _ => { y := 0,    b := 0,    g := 0 }

/-- The reference sector of the speed estimator (R9, R96). -/
def referenceSector : SectorCode := 1

/-- A row of the sector code, executed alone: the pattern it selects is given back, at the block's filtered duty, with
whether it is the reference sector. No register is written, since `MIX` writes none (R81). DESIGN CHOICE, log entry 7:
outside a `TICK` the block receives no sector code, and the duty taken is the view of R24. -/
def replyPattern (sector : SectorCode) (s : State) : Host.Outcome State Fault Refusal :=
  complete s s (.pattern (mix s.filteredDuty sector) (sector == referenceSector))

/-- Sector code 0 (R81). -/
def execSector0 (s : State) : Host.Outcome State Fault Refusal := replyPattern 0 s

/-- Sector code 1 (R81). -/
def execSector1 (s : State) : Host.Outcome State Fault Refusal := replyPattern 1 s

/-- Sector code 2 (R81). -/
def execSector2 (s : State) : Host.Outcome State Fault Refusal := replyPattern 2 s

/-- Sector code 3 (R81). -/
def execSector3 (s : State) : Host.Outcome State Fault Refusal := replyPattern 3 s

/-- Sector code 4 (R81). -/
def execSector4 (s : State) : Host.Outcome State Fault Refusal := replyPattern 4 s

/-- Sector code 5 (R81). -/
def execSector5 (s : State) : Host.Outcome State Fault Refusal := replyPattern 5 s

/-- Sector code 6 (R81). -/
def execSector6 (s : State) : Host.Outcome State Fault Refusal := replyPattern 6 s

/-- Sector code 7: unreachable, and in the table's row "other" (R53, R81, D24). -/
def execSector7 (s : State) : Host.Outcome State Fault Refusal := replyPattern 7 s

end Sys2Proof.Machine
end

