-- ==== Sys2Proof/Machine/SpeedEstimator.lean ====
section
/-! DEFINITION. `SPEED`, the tick-counting speed estimator (44_speed_estimator.md). -/

namespace Sys2Proof.Machine

/-- An entry into the reference sector: only `prev != 1` and `sector == 1` are read, so the direction, a glitch and a
jump all count (R97, R99). -/
def speedEdge (prev sector : SectorCode) : Bool :=
  prev != referenceSector && sector == referenceSector

/-- `cnt'` of `SPEED`: reset at an edge, then always incremented, modulo 2^32 (R97, R100; the spec's decision D19). -/
def speedCount (prev sector : SectorCode) (cnt : TickWord) : TickWord :=
  (if speedEdge prev sector then 0 else cnt) + 1

/-- `per'` of `SPEED`: at an edge the count before this tick's increment is captured (R97). -/
def speedPeriod (prev sector : SectorCode) (cnt per : TickWord) : TickWord :=
  if speedEdge prev sector then cnt else per

end Sys2Proof.Machine
end

