-- ==== Sys2Proof/Machine/Controller.lean ====
section
/-! DEFINITION. The four operations of the controller: `TICK`, `SETEN`, `SETDUTY`, `GETSPEED` (45_controller_ops.md). -/

namespace Sys2Proof.Machine

/-- The Enabled branch of `TICK` (R106). Every register on a right-hand side is read before the `TICK`. -/
def tickEnabled (hall : HallCode) (s : State) : State :=
  let sector := halldec hall
  let f := filt s.cfg.filterShift s.acc.toInt s.duty
  ((presentPhases (mix f.2 sector) s).setAcc (BitVec.ofInt 32 f.1)).setSpeed
    (speedCount s.lastSector sector s.speedTickCount)
    (speedPeriod s.lastSector sector s.speedTickCount s.speedPeriodTicks)
    sector

/-- The Disabled branch of `TICK`: the phase values are (0, 0, 0), and nothing else runs (R107; the spec's decisions
D14, D15). -/
def tickDisabled (s : State) : State := presentPhases { y := 0, b := 0, g := 0 } s

/-- `TICK` reads `st.enabled` once and takes one of its two branches (R105). -/
def execTick (hall : HallCode) (s : State) : Host.Outcome State Fault Refusal :=
  complete s (if s.enabled then tickEnabled hall s else tickDisabled s) .nothing

/-- `SETEN(b)`: the flag and the output stage, and nothing else (R110, R111; the spec's decisions D16, D17). -/
def execSeten (b : Bool) (s : State) : Host.Outcome State Fault Refusal :=
  complete s ((s.setEnabledFlag b).setOutputStage b) .nothing

/-- `SETDUTY(v)`: the clamped command is stored, in either controller state (R113). -/
def execSetduty (v : Int) (s : State) : Host.Outcome State Fault Refusal :=
  complete s (s.setDuty (clampDuty v)) .nothing

/-- `GETSPEED`: the captured period is given back, and no register is written (R115). -/
def execGetspeed (s : State) : Host.Outcome State Fault Refusal :=
  complete s s (.speedPeriodTicks s.speedPeriodTicks)

end Sys2Proof.Machine
end

