-- ==== Sys2Proof/Machine/Dispatch.lean ====
section
/-! DEFINITION. Which meaning each operation has. -/

namespace Sys2Proof.Machine

/-- Execute one operation. -/
def exec (i : Instr) (s : State) : Host.Outcome State Fault Refusal :=
  match i with
  | .tick hall => Sys2Proof.Machine.execTick hall s
  | .seten b => Sys2Proof.Machine.execSeten b s
  | .setduty v => Sys2Proof.Machine.execSetduty v s
  | .getspeed => Sys2Proof.Machine.execGetspeed s
  | .hall0 => Sys2Proof.Machine.execHall0 s
  | .hall1 => Sys2Proof.Machine.execHall1 s
  | .hall2 => Sys2Proof.Machine.execHall2 s
  | .hall3 => Sys2Proof.Machine.execHall3 s
  | .hall4 => Sys2Proof.Machine.execHall4 s
  | .hall5 => Sys2Proof.Machine.execHall5 s
  | .hall6 => Sys2Proof.Machine.execHall6 s
  | .hall7 => Sys2Proof.Machine.execHall7 s
  | .sector0 => Sys2Proof.Machine.execSector0 s
  | .sector1 => Sys2Proof.Machine.execSector1 s
  | .sector2 => Sys2Proof.Machine.execSector2 s
  | .sector3 => Sys2Proof.Machine.execSector3 s
  | .sector4 => Sys2Proof.Machine.execSector4 s
  | .sector5 => Sys2Proof.Machine.execSector5 s
  | .sector6 => Sys2Proof.Machine.execSector6 s
  | .sector7 => Sys2Proof.Machine.execSector7 s
  | .channelY => Sys2Proof.Machine.execChannelY s
  | .channelB => Sys2Proof.Machine.execChannelB s
  | .channelG => Sys2Proof.Machine.execChannelG s

end Sys2Proof.Machine
end

