-- ==== Sys2Proof/Machine/Step.lean ====
section
/-! DEFINITION. One step: take the next word, decode it, execute it. One step is one event (20_memory.md R42). -/

namespace Sys2Proof.Machine

/-- One step of the machine. -/
def step (s : State) : Host.Outcome State Fault Refusal :=
  match decode (takeWord s).1 with
  | .ok i => exec i (takeWord s).2
  | .error e => .refused (refusalOf e)

/-- The state with one word of the opcode table as the next to execute. The block fetches nothing; this is the issuing
of one event (log entry 4). -/
def State.withFetchWord (s : State) (nbits w : Nat) : State :=
  { s with inbox := tableCodeWord nbits w :: s.inbox }

end Sys2Proof.Machine
end

