-- ==== Sys2Proof/Machine/Ports.lean ====
section
/-! DEFINITION. The ports of 10_state.md R31, which are the spec's own choice (92_eei_decisions.md D2): the operations
that the input ports issue, the reset input, and the output ports. -/

namespace Sys2Proof.Machine

/-- The input ports, as they read in one clock cycle (R31). -/
structure PortInputs where
  rst     : Bool
  tickStb : Bool
  hallA   : Bool
  hallB   : Bool
  hallC   : Bool
  cmdStb  : Bool
  cmdOp   : EventOp
  cmdArg  : EventArg
deriving DecidableEq, Repr

/-- The output ports (R31). -/
structure PortOutputs where
  speedPeriodTicks : TickWord
  cmpY             : CompareWord
  cmpB             : CompareWord
  cmpG             : CompareWord
  pwmOutEn         : Bool
deriving DecidableEq, Repr

/-- A pulse on `tick_stb` issues a `TICK` with the Hall inputs as sampled (R31, R49). -/
def tickWords (p : PortInputs) : List CodeWord :=
  if p.tickStb then [.event (eventWord 0 ((packHall p.hallA p.hallB p.hallC).setWidth 16))] else []

/-- A pulse on `cmd_stb` issues the operation `cmd_op`; with `cmd_op` = 0 it issues nothing (R31, R56). -/
def commandWords (p : PortInputs) : List CodeWord :=
  if p.cmdStb && p.cmdOp != 0 then [.event (eventWord p.cmdOp p.cmdArg)] else []

/-- What one cycle issues: with both strobes, the `TICK` first and the command second (60_exceptions.md R125, D21). -/
def portWords (p : PortInputs) : List CodeWord := tickWords p ++ commandWords p

/-- What the input ports do to the machine in one cycle: `rst` puts every register in its reset state and has
precedence (70_reset_and_hazards.md R140, D20), and otherwise the cycle's operations join the queue. The constants are
no state and stay (R141). The compare registers get fresh free values (log entry 3), and what had been queued is gone
(log entry 12). DESIGN CHOICE, log entry 20: under an ill-formed configuration, for which the spec says nothing (00_scope.md
R8), the ports act in the same way; what they queue there is refused when a step takes it. -/
def State.clock (p : PortInputs) (s : State) : State :=
  if p.rst then State.resetWith s.cfg s.drawn else { s with inbox := s.inbox ++ portWords p }

/-- What the output ports show. -/
def State.outputs (s : State) : PortOutputs where
  speedPeriodTicks := s.speedPeriodTicks
  cmpY := s.cmpY
  cmpB := s.cmpB
  cmpG := s.cmpG
  pwmOutEn := s.pwmOutEn

end Sys2Proof.Machine
end

