-- ==== Sys2Proof/Machine/Script.lean ====
section
/-! DEFINITION. The event scripts of 30_encoding.md R58 and their pseudo-operations (R59): the notation in which a total
order of events is written down. -/

namespace Sys2Proof.Machine

/-- One line of a script. -/
inductive Line where
  /-- `TICK h=<0..7>`. -/
  | tickHall (h : HallCode)
  /-- `TICK s=<0..6>`, giving the sector instead of the Hall code. -/
  | tickSector (k : SectorCode)
  /-- `TICK` with no operand, used only while Disabled. -/
  | tickBare
  /-- `SETEN <0|1>`. -/
  | seten (b : Bool)
  /-- `STOP`. -/
  | stop
  /-- `START`. -/
  | start
  /-- `SETDUTY <integer>`. -/
  | setduty (v : Int)
  /-- `GETSPEED`. -/
  | getspeed
deriving DecidableEq, Repr

/-- A script: lines, and blocks `REPEAT n { ... }`. -/
inductive Script where
  | done
  | line (l : Line) (rest : Script)
  | rep (n : Nat) (body rest : Script)
deriving DecidableEq, Repr

/-- The event that a line stands for (R58, R59). -/
def Line.event : Line → Instr
  | .tickHall h => .tick h
  | .tickSector k => .tick (hallOfSector k)
  | .tickBare => .tick 0
  | .seten b => .seten b
  | .stop => .seten false
  | .start => .seten true
  | .setduty v => .setduty v
  | .getspeed => .getspeed

/-- The events of a script, in order: a repeated block is written out n times (R59). -/
def Script.events : Script → List Instr
  | .done => []
  | .line l rest => l.event :: rest.events
  | .rep n body rest => (List.replicate n body.events).flatten ++ rest.events

/-- The machine with a script's event words queued, under an ill-formed configuration too (log entry 20). -/
def State.load (sc : Script) (s : State) : State :=
  { s with inbox := s.inbox ++ sc.events.map encode }

end Sys2Proof.Machine
end

