-- ==== Sys2Proof/Safety.lean ====
section
/-! DEFINITION. What holds of every reachable state (10_state.md R25), what a run over chosen operations is, the
words in which the claims about the legs are made, and which Hall codes a run samples. -/

namespace Sys2Proof.Machine

/-- A compare value inside the guard band: `[GUARD, PERIOD - GUARD]` (R21). -/
abbrev inBand (c : Config) (v : CompareWord) : Prop :=
  c.guard ≤ v.toNat ∧ v.toNat ≤ c.period - c.guard

/-- The range of the accumulator (R25 I2): `[-1000 * 2^S, 1000 * 2^S + 2^S - 1]`. -/
abbrev accInRange (shift : Nat) (a : Int) : Prop :=
  -1000 * ((2 ^ shift : Nat) : Int) ≤ a ∧ a ≤ 1000 * ((2 ^ shift : Nat) : Int) + ((2 ^ shift : Nat) : Int) - 1

/-- The range of a duty (R9, R25 I1). -/
abbrev dutyInRange (d : Int) : Prop := -1000 ≤ d ∧ d ≤ 1000

/-- The invariants I1 to I6 of R25, with the configuration well formed (R8). I7 speaks of the last `TICK` and is a
statement about a `TICK`'s result. -/
structure State.Inv (s : State) : Prop where
  config     : s.cfg.wf
  duty       : dutyInRange s.duty
  acc        : accInRange s.cfg.filterShift s.acc.toInt
  filtered   : dutyInRange s.filteredDuty
  lastSector : s.lastSector.toNat ≤ 6
  stage      : s.pwmOutEn = s.enabled
  legs       : s.cmpWritten = true →
    inBand s.cfg s.cmpY ∧ inBand s.cfg s.cmpB ∧ inBand s.cfg s.cmpG

/-- All three legs at the centre value `PERIOD div 2` (R25 I7). -/
abbrev State.LegsCentred (s : State) : Prop :=
  s.cmpY.toNat = s.cfg.period / 2 ∧ s.cmpB.toNat = s.cfg.period / 2 ∧ s.cmpG.toNat = s.cfg.period / 2

/-- Two states whose ten registers agree, with "unwritten" (R14). -/
abbrev State.SameRegisters (s t : State) : Prop :=
  t.enabled = s.enabled ∧ t.dutyCommand = s.dutyCommand ∧ t.acc = s.acc ∧ t.lastSector = s.lastSector ∧
  t.speedTickCount = s.speedTickCount ∧ t.speedPeriodTicks = s.speedPeriodTicks ∧ t.cmpY = s.cmpY ∧
  t.cmpB = s.cmpB ∧ t.cmpG = s.cmpG ∧ t.cmpWritten = s.cmpWritten ∧ t.pwmOutEn = s.pwmOutEn

/-- Execute operations one after another, stopping at the first refusal. -/
def runAll : List Instr → State → Host.Outcome State Fault Refusal
  | [], s => .next s
  | i :: is, s =>
    match exec i s with
    | .next t => runAll is t
    | .fault f => .fault f
    | .refused r => .refused r

/-- The controller state after an operation that begins in the controller state `e`: only `SETEN` changes it (60_exceptions.md
R130). -/
def modeAfter (e : Bool) : Instr → Bool
  | .seten b => b
  | .tick _ | .setduty _ | .getspeed => e
  | .hall0 | .hall1 | .hall2 | .hall3 | .hall4 | .hall5 | .hall6 | .hall7 => e
  | .sector0 | .sector1 | .sector2 | .sector3 | .sector4 | .sector5 | .sector6 | .sector7 => e
  | .channelY | .channelB | .channelG => e

/-- The Hall code, if any, that an operation samples in the controller state `e`: the Hall inputs are "sampled by an
Enabled `TICK` only" (10_state.md R31). -/
def sampledBy (e : Bool) : Instr → List HallCode
  | .tick h => if e then [h] else []
  | .seten _ | .setduty _ | .getspeed => []
  | .hall0 | .hall1 | .hall2 | .hall3 | .hall4 | .hall5 | .hall6 | .hall7 => []
  | .sector0 | .sector1 | .sector2 | .sector3 | .sector4 | .sector5 | .sector6 | .sector7 => []
  | .channelY | .channelB | .channelG => []

/-- The controller state after some operations that begin in `e`. -/
def modeAfterAll : Bool → List Instr → Bool
  | e, [] => e
  | e, i :: is => modeAfterAll (modeAfter e i) is

/-- The Hall codes that the Enabled `TICK`s among some operations sample, in order; the operations begin in the
controller state `e`. -/
def sampledHalls : Bool → List Instr → List HallCode
  | _, [] => []
  | e, i :: is => sampledBy e i ++ sampledHalls (modeAfter e i) is

end Sys2Proof.Machine
end

