-- ==== Sys2Proof/Certificates/Slice0/Obligations.lean ====
section
/-! DEFINITION. The statements for the provers. Each docstring names the rule of spec/ that the statement formalises,
and the log entry or the spec's own decision it rests on where it rests on one. -/

open Sys2Proof Sys2Proof.Machine

-- ==== Decoding ====

/-- No operand and no bit of an encoding is dropped. The event word is the spec's own serialisation
(30_encoding.md R49, R51; 92_eei_decisions.md D3). -/
def Obligations.DecodeOfEncodeIsTheOperation : Prop :=
  ∀ i : Instr, i.wf → decode (encode i) = .ok i

/-- Two event words denote the same event exactly when they agree on `op` and on the bits of `arg` that the operation
uses: 2:0 for `TICK`, 0 for `SETEN`, 15:0 for `SETDUTY`, none for `GETSPEED` (R51, R56; D3, D4, D36). -/
def Obligations.EventWordsDifferOnlyInUsedBits : Prop :=
  ∀ w w' : EventWord,
    decode (.event w) = decode (.event w') ↔
      w.toNat / 65536 = w'.toNat / 65536 ∧
      (w.toNat / 65536 = 0 → ∀ k, k < 3 → w.getLsbD k = w'.getLsbD k) ∧
      (w.toNat / 65536 = 1 → w.getLsbD 0 = w'.getLsbD 0) ∧
      (w.toNat / 65536 = 2 → ∀ k, k < 16 → w.getLsbD k = w'.getLsbD k)

/-- Every event word, Hall code and sector code decodes, to a well-formed operation; of the channel codes only 3 does
not (R50, R54, R56; D3, D23). A number that is a word of no space does not decode either (log entry 5). -/
def Obligations.OnlyChannelCodeThreeIsUnused : Prop :=
  ∀ c : CodeWord,
    (∃ i, decode c = .ok i ∧ i.wf) ↔ (c ≠ .channel 3 ∧ ∀ nbits w, c ≠ .unframed nbits w)

/-- A word that decodes has exactly one row of the opcode table, the row of the operation it decodes to: no two rows
overlap, and no word decodes to a neighbour (R48 to R54; D3). -/
def Obligations.DecodedWordHasItsRowOnly : Prop :=
  ∀ (c : CodeWord) (i j : Instr), decode c = .ok i → ((tableRow j).holds c ↔ tableRow j = tableRow i)

/-- Words written out from the encodings of R49 to R54 and from 95_test_vectors.md sections 2.6 to 2.8 (D3, D23). -/
def Obligations.WordsOfTheSpecDecode : Prop :=
  decode (.event 0x00004) = .ok (.tick 4) ∧ decode (.event 0x0FFF9) = .ok (.tick 1) ∧
  decode (.event 0x10001) = .ok (.seten true) ∧ decode (.event 0x1FFFE) = .ok (.seten false) ∧
  decode (.event 0x201F4) = .ok (.setduty 500) ∧ decode (.event 0x2FE0C) = .ok (.setduty (-500)) ∧
  decode (.event 0x28000) = .ok (.setduty (-32768)) ∧ decode (.event 0x3ABCD) = .ok .getspeed ∧
  decode (.hall 5) = .ok .hall5 ∧ decode (.sector 6) = .ok .sector6 ∧ decode (.channel 2) = .ok .channelG ∧
  decode (.channel 3) = .error .unusedChannelCode

-- ==== The step ====

/-- A step runs the operation that the next word decodes to: the oldest word of the queue, and with an empty queue the
event that the agents issue, a free value (R42; the queue is log entry 4, DESIGN CHOICE). Two clauses are the model's
own and no rule of the spec: that a step on a word that does not decode is refused (log entry 11, DEDUCED), and how a bare
number that the host places is read as a word, which is then the next to run (log entries 4 and 5, DESIGN CHOICE). -/
def Obligations.StepRunsTheDecodedOperation : Prop :=
  (∀ (s : State) (w : CodeWord) (rest : List CodeWord) (i : Instr),
    s.inbox = w :: rest → decode w = .ok i → step s = exec i { s with inbox := rest }) ∧
  (∀ (s : State) (w : CodeWord) (rest : List CodeWord) (e : DecodeError),
    s.inbox = w :: rest → decode w = .error e → step s = .refused (refusalOf e)) ∧
  (∀ s : State, s.inbox = [] →
    step s = exec (decodeEvent (Config.agentEvent s.drawn)) { s with drawn := s.drawn + 1 }) ∧
  (∀ (s : State) (nbits w : Nat) (i : Instr),
    decodeTableWord nbits w = some i → step (s.withFetchWord nbits w) = exec i s)

/-- Steps take the queued words one by one, in their order: stepping through the words of some operations is executing
these operations one after another (R42, "events occur in the order the agent issues them"; D21, log entry 4). -/
def Obligations.QueuedWordsRunInOrder : Prop :=
  ∀ (is : List Instr) (rest : List CodeWord) (s : State), (∀ i ∈ is, i.wf) →
    Host.Core.run Sys2Proof.core is.length { s with inbox := is.map encode ++ rest } =
      runAll is { s with inbox := rest }

/-- A script runs as it is written. First each line and each pseudo-operation with its expansion, which together fix the
events of every script: the line order is the event order, `TICK s=k` takes the Hall code H(k), `TICK` alone is
`TICK h=0`, `STOP` is `SETEN 0`, `START` is `SETEN 1`, and `REPEAT` writes its lines out n times (R58, R59; D28). Then the
run: from an empty queue, the steps after loading a script are the operations it expands to, in that order (R42; the queue
is log entry 4). -/
def Obligations.ScriptsRunAsWritten : Prop :=
  Script.done.events = [] ∧
  (∀ rest : Script,
    (∀ h : HallCode, (Script.line (.tickHall h) rest).events = .tick h :: rest.events) ∧
    (Script.line (.tickSector 0) rest).events = .tick 0 :: rest.events ∧
    (Script.line (.tickSector 1) rest).events = .tick 4 :: rest.events ∧
    (Script.line (.tickSector 2) rest).events = .tick 5 :: rest.events ∧
    (Script.line (.tickSector 3) rest).events = .tick 1 :: rest.events ∧
    (Script.line (.tickSector 4) rest).events = .tick 3 :: rest.events ∧
    (Script.line (.tickSector 5) rest).events = .tick 2 :: rest.events ∧
    (Script.line (.tickSector 6) rest).events = .tick 6 :: rest.events ∧
    (Script.line .tickBare rest).events = .tick 0 :: rest.events ∧
    (∀ b : Bool, (Script.line (.seten b) rest).events = .seten b :: rest.events) ∧
    (Script.line .stop rest).events = .seten false :: rest.events ∧
    (Script.line .start rest).events = .seten true :: rest.events ∧
    (∀ v : Int, (Script.line (.setduty v) rest).events = .setduty v :: rest.events) ∧
    (Script.line .getspeed rest).events = .getspeed :: rest.events) ∧
  (∀ body rest : Script, (Script.rep 0 body rest).events = rest.events ∧
    ∀ n : Nat, (Script.rep (n + 1) body rest).events = body.events ++ (Script.rep n body rest).events) ∧
  (∀ (sc : Script) (s : State) (is : List Instr), s.inbox = [] → sc.events = is → (∀ i ∈ is, i.wf) →
    Host.Core.run Sys2Proof.core is.length (s.load sc) = runAll is s)

/-- In every state that meets the invariants, every event has a next state (R116), and so has every step whose queue
holds events only; that there is a queue, and that a step with an empty one executes an event which the agents issue, is
the model's choice (log entry 4, DESIGN CHOICE). Under a configuration that is not well formed no event has a step (R8,
D13); that the rows of the code spaces have none there either is the model's reading (log entry 10, DEDUCED), since R8 does
not name them. -/
def Obligations.EventsAlwaysHaveANextState : Prop :=
  (∀ (s : State) (i : Instr), s.Inv → i.isEvent = true → ∃ t, exec i s = .next t) ∧
  (∀ s : State, s.Inv → (∀ w ∈ s.inbox, ∃ e, w = .event e) → ∃ t, step s = .next t) ∧
  (∀ (s : State) (i : Instr), ¬ s.cfg.wf → exec i s = .refused .illFormedConfiguration)

-- ==== Invariants ====

/-- Every step keeps the invariants I1 to I6 (10_state.md R25). -/
def Obligations.StepKeepsTheInvariants : Prop :=
  ∀ s t : State, s.Inv → step s = .next t → t.Inv

/-- The reset state meets the invariants, under every well-formed configuration and whatever the free values of the
compare registers (R35; D20); so does the state the model starts from (log entry 2). -/
def Obligations.ResetMeetsTheInvariants : Prop :=
  (∀ (c : Config) (n : Nat), c.wf → (State.resetWith c n).Inv) ∧ State.reset.Inv

/-- Whatever is queued and whatever the agents issue after that, every state that a run from reset reaches meets the
invariants (R25). -/
def Obligations.RunsFromResetMeetTheInvariants : Prop :=
  ∀ (c : Config) (n k : Nat) (words : List CodeWord) (t : State), c.wf →
    Host.Core.run Sys2Proof.core k { State.resetWith c n with inbox := words } = .next t → t.Inv

/-- No step, and no run of any length, changes the constants (00_scope.md R7, 70_reset_and_hazards.md R155); the
reset input leaves them too (R141); that it acts at all under an ill-formed configuration is log entry 20 (DESIGN
CHOICE). -/
def Obligations.ConstantsNeverChange : Prop :=
  (∀ (k : Nat) (s t : State), Host.Core.run Sys2Proof.core k s = .next t → t.cfg = s.cfg) ∧
  (∀ (p : PortInputs) (s : State), (s.clock p).cfg = s.cfg)

/-- "The tick handler is the sole writer of filter state, sector history, and speed counters": only `TICK` writes the
accumulator, the last sector, the two speed registers and the compare registers, only `SETEN` writes the flag and the
output stage, only `SETDUTY` the command; no register has two writers, and no invariant ties the flag to the command:
every pair of values is reached (10_state.md R26). -/
def Obligations.EveryRegisterHasOneWriter : Prop :=
  (∀ (i : Instr) (s t : State), exec i s = .next t →
    ((∀ h, i ≠ .tick h) → t.acc = s.acc ∧ t.lastSector = s.lastSector ∧ t.speedTickCount = s.speedTickCount ∧
      t.speedPeriodTicks = s.speedPeriodTicks ∧ t.cmpY = s.cmpY ∧ t.cmpB = s.cmpB ∧ t.cmpG = s.cmpG ∧
      t.cmpWritten = s.cmpWritten) ∧
    ((∀ b, i ≠ .seten b) → t.enabled = s.enabled ∧ t.pwmOutEn = s.pwmOutEn) ∧
    ((∀ v, i ≠ .setduty v) → t.dutyCommand = s.dutyCommand)) ∧
  (∀ (s : State) (b : Bool) (v : Int), s.Inv → dutyInRange v →
    ∃ t, runAll [.seten b, .setduty v] s = .next t ∧ t.enabled = b ∧ t.duty = v ∧ t.Inv)

/-- Disabled and Enabled are operating modes: every operation is permitted in both and none traps in either; they are
entered and left only by `SETEN` and by reset (60_exceptions.md R130). R130 speaks of the four events (R3); that the
rows of the code spaces run at all, and so in both modes, is the model's choice (log entries 6, 7 and 8, DESIGN CHOICE),
and so are the queue that the clause about a step reads (log entry 4) and a reset under an ill-formed configuration (log
entry 20). -/
def Obligations.EveryOperationRunsInBothModes : Prop :=
  (∀ (i : Instr) (s : State), s.cfg.wf →
    (∃ t, exec i { s with enabled := false } = .next t) ∧ (∃ t, exec i { s with enabled := true } = .next t) ∧
    (∃ t, exec i s = .next t)) ∧
  (∀ (i : Instr) (s t : State), exec i s = .next t → t.enabled ≠ s.enabled → i = .seten t.enabled) ∧
  (∀ (s t : State), step s = .next t → t.enabled ≠ s.enabled → decode (takeWord s).1 = .ok (.seten t.enabled)) ∧
  (∀ (s : State) (b : Bool), s.cfg.wf → ∃ t, exec (.seten b) s = .next t ∧ t.enabled = b) ∧
  (∀ (c : Config) (n : Nat), (State.resetWith c n).enabled = false)

-- ==== Reset and the ports ====

/-- After reset, whatever the configuration: Disabled, the output stage off, the command, the accumulator, the last
sector and the speed registers 0, and the compare registers unwritten (R34, R140; the output stage and the compare
registers are D20). The reset input does this from every state. Under a
configuration that is not well formed this is the model's choice (log entry 20, DESIGN CHOICE), since the spec says nothing
there (R8). -/
def Obligations.ResetLeavesZeroAndDisabled : Prop :=
  ∀ (c : Config) (n : Nat) (p : PortInputs) (s t : State),
    (t = State.resetWith c n ∨ (p.rst = true ∧ t = s.clock p)) →
      t.enabled = false ∧ t.dutyCommand = 0 ∧ t.acc = 0 ∧ t.lastSector = 0 ∧ t.speedTickCount = 0 ∧
      t.speedPeriodTicks = 0 ∧ t.pwmOutEn = false ∧ t.cmpWritten = false

/-- What one cycle issues, for every reading of the two strobes: `tick_stb` alone issues a `TICK` with the Hall bits
weighted 1, 2 and 4; `cmd_stb` alone issues the operation `cmd_op`; with both, the `TICK` comes first and the command
second; a command strobe with `cmd_op` = 0 issues nothing, so that a `TICK` beside it stands alone, and without a strobe
nothing is issued. Nothing but the queue changes. `cmd_op` 1 is `SETEN` with bit 0, 2 is `SETDUTY` with the signed operand,
3 is `GETSPEED` (10_state.md R31, 30_encoding.md R56 (e), 60_exceptions.md R125; D2, D21; the queue is log entries 4
and 12; the ports under an ill-formed configuration are log entry 20, DESIGN CHOICE). -/
def Obligations.PortsIssueTheTickFirst : Prop :=
  (∀ (p : PortInputs) (s : State), p.rst = false →
    ∃ h : HallCode, h.toNat = p.hallA.toNat + 2 * p.hallB.toNat + 4 * p.hallC.toNat ∧
      (p.tickStb = true → p.cmdStb = true → p.cmdOp ≠ 0 →
        s.clock p = { s with inbox := s.inbox ++ [encode (.tick h), .event (eventWord p.cmdOp p.cmdArg)] }) ∧
      (p.tickStb = true → (p.cmdStb = false ∨ p.cmdOp = 0) →
        s.clock p = { s with inbox := s.inbox ++ [encode (.tick h)] }) ∧
      (p.tickStb = false → p.cmdStb = true → p.cmdOp ≠ 0 →
        s.clock p = { s with inbox := s.inbox ++ [.event (eventWord p.cmdOp p.cmdArg)] }) ∧
      (p.tickStb = false → (p.cmdStb = false ∨ p.cmdOp = 0) → s.clock p = s)) ∧
  (∀ h : HallCode, decode (encode (.tick h)) = .ok (.tick h)) ∧
  (∀ arg : EventArg,
    decode (.event (eventWord 1 arg)) = .ok (.seten (arg.getLsbD 0)) ∧
    decode (.event (eventWord 2 arg)) = .ok (.setduty arg.toInt) ∧
    decode (.event (eventWord 3 arg)) = .ok .getspeed)

/-- What the output ports show, and what each operation does to them (R31, R119). They show the captured period, the
three compare registers and the stage. `GETSPEED` gives back what `speed_period_ticks` shows at the event, and it and
`SETDUTY` change no output; `SETEN` changes the stage alone; a `TICK` leaves the stage, and puts the centre on the legs
while Disabled and the clamped pattern of the new filtered duty while Enabled, where an entry into sector 1 also renews the
period (R106, R107, R110; D8, D11, D14, D16). That the rows of the code spaces run, and change no output, is log
entries 6, 7 and 8, and the reply log entry 9. -/
def Obligations.OutputPortsFollowTheOperations : Prop :=
  ∀ s : State, s.cfg.wf →
    s.outputs = { speedPeriodTicks := s.speedPeriodTicks, cmpY := s.cmpY, cmpB := s.cmpB, cmpG := s.cmpG,
                  pwmOutEn := s.pwmOutEn } ∧
    (∃ t, exec .getspeed s = .next t ∧ t.outputs = s.outputs ∧
      t.reply = .speedPeriodTicks s.outputs.speedPeriodTicks) ∧
    (∀ v : Int, ∃ t, exec (.setduty v) s = .next t ∧ t.outputs = s.outputs) ∧
    (∀ b : Bool, ∃ t, exec (.seten b) s = .next t ∧ t.outputs = { s.outputs with pwmOutEn := b }) ∧
    (∀ i : Instr, i.isEvent = false → ∃ t, exec i s = .next t ∧ t.outputs = s.outputs) ∧
    (∀ h : HallCode, s.enabled = false → ∃ t, exec (.tick h) s = .next t ∧
      t.outputs.pwmOutEn = s.outputs.pwmOutEn ∧ t.outputs.speedPeriodTicks = s.outputs.speedPeriodTicks ∧
      t.outputs.cmpY.toNat = s.cfg.period / 2 ∧ t.outputs.cmpB.toNat = s.cfg.period / 2 ∧
      t.outputs.cmpG.toNat = s.cfg.period / 2) ∧
    (∀ h : HallCode, s.Inv → s.enabled = true →
      let p := mix (filt s.cfg.filterShift s.acc.toInt s.duty).2 (halldec h)
      ∃ t, exec (.tick h) s = .next t ∧ t.outputs.pwmOutEn = s.outputs.pwmOutEn ∧
        t.outputs.speedPeriodTicks =
          (if s.lastSector ≠ 1 ∧ halldec h = 1 then s.speedTickCount else s.outputs.speedPeriodTicks) ∧
        (t.outputs.cmpY.toNat : Int) = clamp s.cfg p.y ∧ (t.outputs.cmpB.toNat : Int) = clamp s.cfg p.b ∧
        (t.outputs.cmpG.toNat : Int) = clamp s.cfg p.g)

/-- What the compare registers hold after a reset is gone with the first `TICK`: from two resets that differ in those
values, the same operations, a `TICK` among them, end with the same outputs and the same reply (R34, R117, R119,
70_reset_and_hazards.md R146; the values after a reset are free values, log entry 3, and the reply is log entry 9). -/
def Obligations.OutputsForgetTheResetDraws : Prop :=
  ∀ (c : Config) (n m : Nat) (is js : List Instr) (h : HallCode), c.wf →
    ∃ t u, runAll (is ++ .tick h :: js) (State.resetWith c n) = .next t ∧
      runAll (is ++ .tick h :: js) (State.resetWith c m) = .next u ∧ t.outputs = u.outputs ∧ t.reply = u.reply

/-- The order of bringing up: enabling before the first `TICK` switches the stage on over unwritten compare registers,
which keep what they held; after one `TICK` the legs are at the centre before the stage comes on (70_reset_and_hazards.md R143, R146;
D14, D20). -/
def Obligations.EnablingBeforeTheFirstTickIsHazardous : Prop :=
  ∀ (c : Config) (n : Nat) (h : HallCode), c.wf →
    (∃ t, exec (.seten true) (State.resetWith c n) = .next t ∧ t.pwmOutEn = true ∧ t.cmpWritten = false ∧
      t.cmpY = (State.resetWith c n).cmpY ∧ t.cmpB = (State.resetWith c n).cmpB ∧
      t.cmpG = (State.resetWith c n).cmpG) ∧
    (∃ t, runAll [.tick h, .seten true] (State.resetWith c n) = .next t ∧ t.pwmOutEn = true ∧
      t.cmpWritten = true ∧ t.LegsCentred)

-- ==== The pure stages ====

/-- `HALLDEC` is the fixed table {0,3,5,4,1,2,6,0} (40_hall_commutator.md R61). -/
def Obligations.HallTableIsTheFixedTable : Prop :=
  halldec 0 = 0 ∧ halldec 1 = 3 ∧ halldec 2 = 5 ∧ halldec 3 = 4 ∧
  halldec 4 = 1 ∧ halldec 5 = 2 ∧ halldec 6 = 6 ∧ halldec 7 = 0

/-- `HALLDEC` never gives 7, gives 0 for the two invalid codes only, and is a bijection of the codes 1 to 6 with the
sectors 1 to 6, whose inverse the script notation uses (R59, R62, R63). Successive sectors differ in one Hall bit
(R64). -/
def Obligations.HallCodesAndSectorsCorrespond : Prop :=
  (∀ h : HallCode, (halldec h).toNat ≤ 6 ∧ (halldec h = 0 ↔ h = 0 ∨ h = 7)) ∧
  (∀ k : SectorCode, k ≠ 7 → halldec (hallOfSector k) = k) ∧
  (∀ h : HallCode, h ≠ 0 → h ≠ 7 → hallOfSector (halldec h) = h) ∧
  (∀ k : SectorCode, k ≠ 0 → k ≠ 7 →
    let next : SectorCode := if k = 6 then 1 else k + 1
    (hallOfSector k ^^^ hallOfSector next) ∈ ([1, 2, 4] : List HallCode))

/-- `a >> n` is the floor of a / 2^n, for a negative a too (00_scope.md R12, 41_iir_duty_filter.md R70; the spec's
decision D8). -/
def Obligations.ShiftRoundsTowardMinusInfinity : Prop :=
  ∀ (a q : Int) (n : Nat),
    asr a n = q ↔ q * ((2 ^ n : Nat) : Int) ≤ a ∧ a < (q + 1) * ((2 ^ n : Nat) : Int)

/-- One step of the filter keeps the accumulator in its interval and the output in [-1000, 1000], and neither the
result nor the two ways of evaluating it leaves 32 bits, for every legal shift (R74, R79). -/
def Obligations.FilterStaysInRange : Prop :=
  ∀ (shift : Nat) (a d : Int), shift ≤ 21 → accInRange shift a → dutyInRange d →
    accInRange shift (filt shift a d).1 ∧ dutyInRange (filt shift a d).2 ∧
    -(2 ^ 31 : Int) ≤ (filt shift a d).1 ∧ (filt shift a d).1 < 2 ^ 31 ∧
    -(2 ^ 31 : Int) ≤ a - asr a shift ∧ a - asr a shift < 2 ^ 31 ∧
    -(2 ^ 31 : Int) ≤ a + d ∧ a + d < 2 ^ 31

/-- Under a constant input k the filter rests exactly where its output is k, and from either side it moves strictly
toward k without overshoot (R75). -/
def Obligations.FilterApproachesWithoutOvershoot : Prop :=
  ∀ (shift : Nat) (a k : Int),
    ((filt shift a k).1 = a ↔ asr a shift = k) ∧
    (asr a shift < k → a < (filt shift a k).1 ∧ (filt shift a k).1 ≤ k * ((2 ^ shift : Nat) : Int)) ∧
    (k < asr a shift → (filt shift a k).1 < a ∧
      k * ((2 ^ shift : Nat) : Int) + ((2 ^ shift : Nat) : Int) - 1 ≤ (filt shift a k).1)

/-- The first step from rest, and the transparent filter: from 0 one input k gives the accumulator k and the output
k >> S, for every k, which is 0 for 0 ≤ k < 2^S and -1, not 0, for -2^S ≤ k < 0; with shift 0 the output is the input (R76, R77;
D8). -/
def Obligations.FilterFromRest : Prop :=
  (∀ (shift : Nat) (k : Int), (filt shift 0 k).1 = k ∧ (filt shift 0 k).2 = asr k shift ∧
    (0 ≤ k → k < ((2 ^ shift : Nat) : Int) → (filt shift 0 k).2 = 0) ∧
    (-((2 ^ shift : Nat) : Int) ≤ k → k < 0 → (filt shift 0 k).2 = -1)) ∧
  (∀ a k : Int, filt 0 a k = (k, k))

/-- `MIX` is the fixed six-step table, row by row (42_phase_mixer_6step.md R81). -/
def Obligations.MixTableIsTheSixStepTable : Prop :=
  ∀ pwm : Int,
    mix pwm 1 = ⟨0, pwm, -pwm⟩ ∧ mix pwm 2 = ⟨-pwm, pwm, 0⟩ ∧ mix pwm 3 = ⟨-pwm, 0, pwm⟩ ∧
    mix pwm 4 = ⟨0, -pwm, pwm⟩ ∧ mix pwm 5 = ⟨pwm, -pwm, 0⟩ ∧ mix pwm 6 = ⟨pwm, 0, -pwm⟩ ∧
    mix pwm 0 = ⟨0, 0, 0⟩ ∧ mix pwm 7 = ⟨0, 0, 0⟩

/-- The three phase values sum to 0 in every sector; a nonzero duty leaves exactly one leg at 0 in the sectors 1 to 6;
and the sector three on drives the legs as the opposite duty would (R82, R83). -/
def Obligations.MixPatternsAreBalanced : Prop :=
  ∀ (pwm : Int) (k : SectorCode),
    (mix pwm k).y + (mix pwm k).b + (mix pwm k).g = 0 ∧
    (k ≠ 0 → k ≠ 7 → pwm ≠ 0 →
      ((mix pwm k).y = 0 ∧ (mix pwm k).b ≠ 0 ∧ (mix pwm k).g ≠ 0) ∨
      ((mix pwm k).y ≠ 0 ∧ (mix pwm k).b = 0 ∧ (mix pwm k).g ≠ 0) ∨
      ((mix pwm k).y ≠ 0 ∧ (mix pwm k).b ≠ 0 ∧ (mix pwm k).g = 0)) ∧
    (k.toNat ∈ [1, 2, 3] → mix pwm (k + 3) = mix (-pwm) k)

/-- `CLAMP` lands in the guard band, is monotone, has slope 1 between its thresholds, saturates outside them, and at
the extremes gives the guard bounds (43_pwm_clamper.md R90, R92; D11). The rule's "exactly when" needs a band of more
than one value: at `PERIOD` = 2 * `GUARD` every input gives `GUARD` (vectors V-CL33 to V-CL37), a reading
of the model's own (log entry 19, DEDUCED). -/
def Obligations.ClampSaturatesAtTheGuardBand : Prop :=
  ∀ (c : Config) (v v' : Int), c.wf →
    let g : Int := c.guard
    let p : Int := c.period
    let h : Int := ((c.period / 2 : Nat) : Int)
    g ≤ clamp c v ∧ clamp c v ≤ p - g ∧
    (v ≤ v' → clamp c v ≤ clamp c v') ∧
    (g - h ≤ v → v ≤ p - g - h → clamp c v = v + h) ∧
    (v ≤ g - h → clamp c v = g) ∧ (p - g - h ≤ v → clamp c v = p - g) ∧
    (2 * g < p → (clamp c v = g ↔ v ≤ g - h) ∧ (clamp c v = p - g ↔ p - g - h ≤ v)) ∧
    clamp c 0 = h ∧ clamp c (-h) = g ∧ clamp c (p - h) = p - g

/-- `SPEED`: an edge is "the previous sector was not 1 and the new sector is 1"; it captures the count before this
tick's increment and restarts the count, which is then incremented modulo 2^32, so that an edge leaves 1
(44_speed_estimator.md R97, R99, R100; the wrap is D19). -/
def Obligations.SpeedCapturesAtEntriesIntoSectorOne : Prop :=
  ∀ (prev sector : SectorCode) (cnt per : TickWord),
    (prev ≠ 1 ∧ sector = 1 → speedPeriod prev sector cnt per = cnt ∧ speedCount prev sector cnt = 1) ∧
    (¬ (prev ≠ 1 ∧ sector = 1) → speedPeriod prev sector cnt per = per ∧
      (speedCount prev sector cnt).toNat = (cnt.toNat + 1) % 2 ^ 32)

-- ==== TICK ====

/-- An Enabled `TICK`: the whole control step, and what it leaves unchanged (45_controller_ops.md R106; the shift is
D8, the centre D11, the wrap D19, the one update of the three compare registers D27, the reply log entry 9). -/
def Obligations.EnabledTickIsTheControlStep : Prop :=
  ∀ (s : State) (h : HallCode), s.Inv → s.enabled = true →
    let m : Int := ((2 ^ s.cfg.filterShift : Nat) : Int)
    let acc' : Int := s.acc.toInt - s.acc.toInt / m + s.duty
    let p := mix (acc' / m) (halldec h)
    let leg (v : Int) : Int :=
      sat (v + ((s.cfg.period / 2 : Nat) : Int)) s.cfg.guard ((s.cfg.period : Int) - (s.cfg.guard : Int))
    ∃ t, exec (.tick h) s = .next t ∧
      t.acc.toInt = acc' ∧
      (t.cmpY.toNat : Int) = leg p.y ∧ (t.cmpB.toNat : Int) = leg p.b ∧ (t.cmpG.toNat : Int) = leg p.g ∧
      t.cmpWritten = true ∧
      t.lastSector = halldec h ∧
      (t.speedTickCount.toNat =
        ((if s.lastSector ≠ 1 ∧ halldec h = 1 then 0 else s.speedTickCount.toNat) + 1) % 2 ^ 32) ∧
      (t.speedPeriodTicks = if s.lastSector ≠ 1 ∧ halldec h = 1 then s.speedTickCount else s.speedPeriodTicks) ∧
      t.reply = .nothing ∧
      t.enabled = s.enabled ∧ t.dutyCommand = s.dutyCommand ∧ t.pwmOutEn = s.pwmOutEn ∧ t.cfg = s.cfg ∧
      t.inbox = s.inbox ∧ t.drawn = s.drawn

/-- A Disabled `TICK` puts the centre value on the three legs and changes nothing else: no register of the filter,
the sector history or the speed estimator, and it ignores the Hall code (R107; the centre value is D14, the frozen
filter D15). -/
def Obligations.DisabledTickOnlyCentresTheLegs : Prop :=
  ∀ (s : State) (h : HallCode), s.cfg.wf → s.enabled = false →
    ∃ y b g : CompareWord, exec (.tick h) s =
        .next { s with cmpY := y, cmpB := b, cmpG := g, cmpWritten := true, reply := .nothing } ∧
      y.toNat = s.cfg.period / 2 ∧ b.toNat = s.cfg.period / 2 ∧ g.toNat = s.cfg.period / 2

/-- The invalid Hall codes 0 and 7 are not an error: the legs go to the centre for that tick, the filter and the tick
counter still run, and 0 is stored as the last sector; nothing tells the two codes apart (R63, R84, R108, and R25's
I7; the centre is D11, the wrap D19). -/
def Obligations.InvalidHallCodeGivesNoDrive : Prop :=
  ∀ (s : State) (h : HallCode), s.Inv → s.enabled = true → (h = 0 ∨ h = 7) →
    ∃ t, exec (.tick 0) s = .next t ∧ exec (.tick 7) s = .next t ∧ exec (.tick h) s = .next t ∧ t.LegsCentred ∧
      t.lastSector = 0 ∧ t.acc.toInt = s.acc.toInt - asr s.acc.toInt s.cfg.filterShift + s.duty ∧
      t.speedTickCount = s.speedTickCount + 1 ∧ t.speedPeriodTicks = s.speedPeriodTicks

/-- After any `TICK` each leg's compare value is strictly between 0 and `PERIOD`: no leg is commanded 0 % or 100 %
duty (R91, R90; the invariant I6 of R25). -/
def Obligations.NoLegReachesARail : Prop :=
  ∀ (s : State) (h : HallCode), s.cfg.wf →
    ∃ t, exec (.tick h) s = .next t ∧ t.cmpWritten = true ∧
      inBand s.cfg t.cmpY ∧ inBand s.cfg t.cmpB ∧ inBand s.cfg t.cmpG ∧
      0 < t.cmpY.toNat ∧ t.cmpY.toNat < s.cfg.period ∧ 0 < t.cmpB.toNat ∧ t.cmpB.toNat < s.cfg.period ∧
      0 < t.cmpG.toNat ∧ t.cmpG.toNat < s.cfg.period

/-- While Disabled, nothing depends on the Hall inputs: two runs of any operations short of enabling, which differ only
in the Hall codes of their `TICK`s, end alike, and so they do whatever follows, enabling included (R107, R60, with the
host's operations between the `TICK`s as R42 admits them). -/
def Obligations.HallInputsAreIgnoredWhileDisabled : Prop :=
  ∀ (is js later : List Instr) (s : State), s.enabled = false → (∀ i ∈ is, i ≠ .seten true) →
    List.Forall₂ (fun i j => i = j ∨ ∃ h h', i = .tick h ∧ j = .tick h') is js →
    runAll (is ++ later) s = runAll (js ++ later) s

/-- Under a constant command the filtered duty reaches the command exactly and stays: after 2000 * 2^S Enabled `TICK`s
or more, whatever the Hall inputs, it equals the command (R75 (d), R78; D8). -/
def Obligations.FilteredDutySettlesOnTheCommand : Prop :=
  ∀ (s : State) (hs : List HallCode), s.Inv → s.enabled = true → 2000 * 2 ^ s.cfg.filterShift ≤ hs.length →
    ∃ t, runAll (hs.map .tick) s = .next t ∧ t.filteredDuty = s.duty

/-- One Enabled `TICK` under a command: where the filtered duty is the command, the accumulator stays; below it, the
accumulator rises by at least 1 and not beyond the lowest value that rests there, and above it falls in the same way; the
filtered duty moves toward the command or stays, and never passes it (R75, of the step; D8). -/
def Obligations.EnabledTickApproachesTheCommand : Prop :=
  ∀ (s : State) (h : HallCode), s.Inv → s.enabled = true →
    let m : Int := ((2 ^ s.cfg.filterShift : Nat) : Int)
    ∃ t, exec (.tick h) s = .next t ∧ t.duty = s.duty ∧
      (s.filteredDuty = s.duty → t.acc = s.acc ∧ t.filteredDuty = s.duty) ∧
      (s.filteredDuty < s.duty → s.acc.toInt + 1 ≤ t.acc.toInt ∧ t.acc.toInt ≤ s.duty * m ∧
        s.filteredDuty ≤ t.filteredDuty ∧ t.filteredDuty ≤ s.duty) ∧
      (s.duty < s.filteredDuty → t.acc.toInt + 1 ≤ s.acc.toInt ∧ s.duty * m + m - 1 ≤ t.acc.toInt ∧
        s.duty ≤ t.filteredDuty ∧ t.filteredDuty ≤ s.filteredDuty)

/-- A captured period is the number of Enabled `TICK`s from one entry into sector 1 to the next, modulo 2^32, whatever
operations come between, Disabled `TICK`s and the host's included: the first `TICK` enters sector 1, of the Enabled `TICK`s
between none is an entry, and the last `TICK`, Enabled, is one (R98, "counting only Enabled `TICK`s"; the wrap is D19). -/
def Obligations.PeriodCountsTicksBetweenEntries : Prop :=
  ∀ (s : State) (first last : HallCode) (between : List Instr), s.cfg.wf → s.enabled = true →
    s.lastSector ≠ 1 → halldec first = 1 →
    List.IsChain (fun a b => ¬ (halldec a ≠ 1 ∧ halldec b = 1)) (first :: sampledHalls true between) →
    halldec ((first :: sampledHalls true between).getLastD 0) ≠ 1 →
    modeAfterAll true between = true → halldec last = 1 →
    ∃ t, runAll (.tick first :: between ++ [.tick last]) s = .next t ∧
      t.speedPeriodTicks.toNat = ((sampledHalls true between).length + 1) % 2 ^ 32 ∧ t.speedTickCount = 1

-- ==== SETEN, SETDUTY, GETSPEED ====

/-- `SETEN(b)` writes the flag and the output stage, both at once, and nothing else: the accumulator, the sector
history, the speed registers, the command and the compare registers stay (R110, R111; the immediate effect on the
stage is D16, the rest D17, the reply log entry 9). -/
def Obligations.SetenWritesTheFlagAndTheStage : Prop :=
  ∀ (s : State) (b : Bool), s.cfg.wf →
    exec (.seten b) s = .next { s with enabled := b, pwmOutEn := b, reply := .nothing }

/-- `SETEN` twice is the same as once, and disabling and enabling with no `TICK` between leaves every register of an
Enabled block as it was (R112). -/
def Obligations.SetenIsIdempotent : Prop :=
  (∀ (s : State) (b : Bool), runAll [.seten b, .seten b] s = runAll [.seten b] s) ∧
  (∀ s : State, s.Inv → s.enabled = true →
    ∃ t, runAll [.seten false, .seten true] s = .next t ∧ s.SameRegisters t)

/-- A `SETEN(0)` that is carried out as two writes with a `TICK` between them ends as an order of atomic events does:
the flag first as `SETEN(0); TICK`, the stage first as `TICK; SETEN(0)`; the same holds of `SETEN(1)`
(70_reset_and_hazards.md R148). -/
def Obligations.SplitSetenEqualsAnAtomicOrder : Prop :=
  ∀ (s : State) (h : HallCode) (b : Bool), s.cfg.wf →
    (∃ t, exec (.tick h) (s.setEnabledFlag b) = .next t ∧
      runAll [.seten b, .tick h] s = .next (t.setOutputStage b)) ∧
    (∃ t, exec (.tick h) (s.setOutputStage b) = .next t ∧
      runAll [.tick h, .seten b] s = .next (t.setEnabledFlag b))

/-- `SETDUTY(v)` stores v clamped to [-1000, 1000], in either controller state, and changes nothing else; the caller's
integer is clamped before it is narrowed, so this holds of an integer of any width (R113, R114; the order is D18, the
reply log entry 9). -/
def Obligations.SetdutyStoresTheClampedCommand : Prop :=
  ∀ (s : State) (v : Int), s.cfg.wf →
    ∃ d : DutyWord, exec (.setduty v) s = .next { s with dutyCommand := d, reply := .nothing } ∧
      d.toInt = (if v < -1000 then -1000 else if 1000 < v then 1000 else v)

/-- Only the last command before a `TICK` matters, and the `TICK` sees it at once: the commands before it leave no trace,
and an Enabled `TICK` filters the last one, clamped (10_state.md R32, 20_memory.md R43, R106, R113; D8, D21). -/
def Obligations.OnlyTheLastCommandMatters : Prop :=
  (∀ (s : State) (vs : List Int) (v : Int) (h : HallCode),
    runAll (vs.map .setduty ++ [.setduty v, .tick h]) s = runAll [.setduty v, .tick h] s) ∧
  (∀ (s : State) (vs : List Int) (v : Int) (h : HallCode), s.Inv → s.enabled = true →
    let m : Int := ((2 ^ s.cfg.filterShift : Nat) : Int)
    let d : Int := if v < -1000 then -1000 else if 1000 < v then 1000 else v
    ∃ t, runAll (vs.map .setduty ++ [.setduty v, .tick h]) s = .next t ∧ t.duty = d ∧
      t.acc.toInt = s.acc.toInt - s.acc.toInt / m + d ∧
      t.filteredDuty = (s.acc.toInt - s.acc.toInt / m + d) / m)

/-- `GETSPEED` gives back the captured period and changes no register (R115; the reply is log entry 9). -/
def Obligations.GetspeedReturnsTheCapturedPeriod : Prop :=
  ∀ s : State, s.cfg.wf →
    exec .getspeed s = .next { s with reply := .speedPeriodTicks s.speedPeriodTicks }

/-- Disabling at any point forces the outputs of the next tick to zero drive: after any operations, `SETEN(0); TICK`
leaves the stage off and the legs at the centre, and the filter, the sector history and the speed registers as they
were (R87, R107, R110; D14, D15). -/
def Obligations.DisablingZeroesTheNextTick : Prop :=
  ∀ (is : List Instr) (s u : State) (h : HallCode), s.cfg.wf → runAll is s = .next u →
    ∃ t, runAll (is ++ [.seten false, .tick h]) s = .next t ∧ t.LegsCentred ∧ t.pwmOutEn = false ∧
      t.enabled = false ∧ t.acc = u.acc ∧ t.lastSector = u.lastSector ∧ t.speedTickCount = u.speedTickCount ∧
      t.speedPeriodTicks = u.speedPeriodTicks ∧ t.dutyCommand = u.dutyCommand

/-- However long the block is Disabled and whatever is issued meanwhile, short of enabling it, the accumulator, the
sector history and the speed registers stay; the first Enabled `TICK` after that is one filter step from the kept
accumulator toward the current command (41_iir_duty_filter.md R71, R72, 44_speed_estimator.md R101; D15, D17, D8). -/
def Obligations.FilterIsFrozenWhileDisabled : Prop :=
  ∀ (is : List Instr) (s : State) (h : HallCode), s.Inv → s.enabled = false → (∀ i ∈ is, i ≠ .seten true) →
    ∃ t, runAll is s = .next t ∧ t.enabled = false ∧ t.acc = s.acc ∧ t.lastSector = s.lastSector ∧
      t.speedTickCount = s.speedTickCount ∧ t.speedPeriodTicks = s.speedPeriodTicks ∧
      ∃ u, runAll [.seten true, .tick h] t = .next u ∧
        u.acc.toInt = s.acc.toInt - asr s.acc.toInt s.cfg.filterShift + t.duty

/-- The telemetry tells nothing of the commands: two runs that differ only in the operands of `SETDUTY`, from states
that differ only in the command, the accumulator and the compare registers, read the same period throughout
(R97, R113, R115). -/
def Obligations.TelemetryIsIndependentOfTheCommand : Prop :=
  ∀ (is js : List Instr) (s s' t t' : State),
    List.Forall₂ (fun i j => i = j ∨ ∃ v w, i = .setduty v ∧ j = .setduty w) is js →
    s.cfg = s'.cfg → s.enabled = s'.enabled → s.lastSector = s'.lastSector →
    s.speedTickCount = s'.speedTickCount → s.speedPeriodTicks = s'.speedPeriodTicks →
    runAll is s = .next t → runAll js s' = .next t' →
      t.speedPeriodTicks = t'.speedPeriodTicks ∧ t.lastSector = t'.lastSector ∧
      t.speedTickCount = t'.speedTickCount ∧ t.enabled = t'.enabled

-- ==== The rows of the code spaces ====

/-- Each row of the Hall code gives back the sector of its row and changes no register (R61; that a code is executed
alone is log entry 6). -/
def Obligations.HallRowsGiveTheirSector : Prop :=
  ∀ s : State, s.cfg.wf →
    exec .hall0 s = .next { s with reply := .sector 0 } ∧ exec .hall1 s = .next { s with reply := .sector 3 } ∧
    exec .hall2 s = .next { s with reply := .sector 5 } ∧ exec .hall3 s = .next { s with reply := .sector 4 } ∧
    exec .hall4 s = .next { s with reply := .sector 1 } ∧ exec .hall5 s = .next { s with reply := .sector 2 } ∧
    exec .hall6 s = .next { s with reply := .sector 6 } ∧ exec .hall7 s = .next { s with reply := .sector 0 }

/-- Each row of the sector code gives back its pattern at the filtered duty, and whether it is the reference sector,
and changes no register (R81, R96; that a code is executed alone, and at which duty, is log entry 7). -/
def Obligations.SectorRowsGiveTheirPattern : Prop :=
  ∀ s : State, s.cfg.wf →
    let d := s.filteredDuty
    exec .sector0 s = .next { s with reply := .pattern ⟨0, 0, 0⟩ false } ∧
    exec .sector1 s = .next { s with reply := .pattern ⟨0, d, -d⟩ true } ∧
    exec .sector2 s = .next { s with reply := .pattern ⟨-d, d, 0⟩ false } ∧
    exec .sector3 s = .next { s with reply := .pattern ⟨-d, 0, d⟩ false } ∧
    exec .sector4 s = .next { s with reply := .pattern ⟨0, -d, d⟩ false } ∧
    exec .sector5 s = .next { s with reply := .pattern ⟨d, -d, 0⟩ false } ∧
    exec .sector6 s = .next { s with reply := .pattern ⟨d, 0, -d⟩ false } ∧
    exec .sector7 s = .next { s with reply := .pattern ⟨0, 0, 0⟩ false }

/-- Each row of the channel code gives back its leg's compare output and changes no register (R54; that a code is
executed alone is log entry 8). -/
def Obligations.ChannelRowsGiveTheirCompareOutput : Prop :=
  ∀ s : State, s.cfg.wf →
    exec .channelY s = .next { s with reply := .compare .y s.cmpY } ∧
    exec .channelB s = .next { s with reply := .compare .b s.cmpB } ∧
    exec .channelG s = .next { s with reply := .compare .g s.cmpG }

/-- After an Enabled `TICK` the rows of the code spaces tell what the `TICK` did: its Hall code's row gives the stored
sector, that sector's row gives the phase values whose clamped values stand in the compare registers, and the channel
rows read these registers (R106; log entries 6, 7 and 8). -/
def Obligations.CodeRowsExplainATick : Prop :=
  ∀ (s t : State) (h : HallCode), s.Inv → s.enabled = true → exec (.tick h) s = .next t →
    exec (decodeHall h) t = .next { t with reply := .sector t.lastSector } ∧
    ∃ p r, exec (decodeSector t.lastSector) t = .next { t with reply := .pattern p r } ∧
      (r = true ↔ t.lastSector = 1) ∧
      (t.cmpY.toNat : Int) = clamp t.cfg p.y ∧ (t.cmpB.toNat : Int) = clamp t.cfg p.b ∧
      (t.cmpG.toNat : Int) = clamp t.cfg p.g ∧
      exec .channelY t = .next { t with reply := .compare .y t.cmpY } ∧
      exec .channelB t = .next { t with reply := .compare .b t.cmpB } ∧
      exec .channelG t = .next { t with reply := .compare .g t.cmpG }
end

