-- ==== Sys2Proof/Laws/Arith.lean ====
section
/-! SUPPORT. What the arithmetic primitives and the pure stages can answer. -/

namespace Sys2Proof.Machine

theorem sat_mem {x lo hi : Int} (h : lo ≤ hi) : lo ≤ sat x lo hi ∧ sat x lo hi ≤ hi := by
  unfold sat
  split
  · omega
  · split <;> omega

theorem sat_of_mem {x lo hi : Int} (h₁ : lo ≤ x) (h₂ : x ≤ hi) : sat x lo hi = x := by
  unfold sat
  rw [if_neg (by omega), if_neg (by omega)]

/-- `a >> n` is the one quotient whose remainder is not negative and less than `2^n` (41_iir_duty_filter.md R73). -/
theorem asr_spec (a : Int) (n : Nat) :
    ((2 ^ n : Nat) : Int) * asr a n ≤ a ∧ a < ((2 ^ n : Nat) : Int) * asr a n + ((2 ^ n : Nat) : Int) := by
  have hpos : (0 : Int) < ((2 ^ n : Nat) : Int) := by positivity
  have hdiv := Int.mul_ediv_add_emod a ((2 ^ n : Nat) : Int)
  have hlo := Int.emod_nonneg a (ne_of_gt hpos)
  have hhi := Int.emod_lt_of_pos a hpos
  unfold asr
  omega

theorem asr_lt_iff (a q : Int) (n : Nat) : asr a n < q ↔ a < q * ((2 ^ n : Nat) : Int) :=
  Int.ediv_lt_iff_lt_mul (by positivity)

theorem le_asr_iff (a q : Int) (n : Nat) : q ≤ asr a n ↔ q * ((2 ^ n : Nat) : Int) ≤ a :=
  Int.le_ediv_iff_mul_le (by positivity)

theorem asr_zero (a : Int) : asr a 0 = a := by simp [asr]

/-- A value that a 32-bit two's-complement register can hold is read back as it was written. -/
theorem toInt_ofInt_32 {x : Int} (h₁ : -2147483648 ≤ x) (h₂ : x ≤ 2147483647) : (BitVec.ofInt 32 x).toInt = x :=
  BitVec.toInt_ofInt_eq_self (by omega) (by norm_num; omega) (by norm_num; omega)

/-- A value that a 16-bit two's-complement register can hold is read back as it was written. -/
theorem toInt_ofInt_16 {x : Int} (h₁ : -32768 ≤ x) (h₂ : x ≤ 32767) : (BitVec.ofInt 16 x).toInt = x :=
  BitVec.toInt_ofInt_eq_self (by omega) (by norm_num; omega) (by norm_num; omega)

/-- A value that a 16-bit unsigned register can hold is read back as it was written. -/
theorem toNat_ofInt_16 {x : Int} (h₁ : 0 ≤ x) (h₂ : x ≤ 65535) : ((BitVec.ofInt 16 x).toNat : Int) = x := by
  rw [BitVec.toNat_ofInt]
  omega

/-- The stored command is the clamped one (45_controller_ops.md R113). -/
theorem clampDuty_toInt (v : Int) : (clampDuty v).toInt = sat v dutyMin dutyMax := by
  have h := sat_mem (x := v) (lo := dutyMin) (hi := dutyMax) (by decide)
  unfold clampDuty
  simp only [dutyMin, dutyMax] at *
  exact toInt_ofInt_16 (by omega) (by omega)

/-- `HALLDEC` never produces 7 (40_hall_commutator.md R62). -/
theorem halldec_le_six : ∀ h : HallCode, (halldec h).toNat ≤ 6 := by decide

/-- Every phase value is 0, `pwm` or `-pwm` (42_phase_mixer_6step.md R81). -/
theorem mix_values (pwm : Int) (sector : SectorCode) :
    let p := mix pwm sector
    (p.y = 0 ∨ p.y = pwm ∨ p.y = -pwm) ∧ (p.b = 0 ∨ p.b = pwm ∨ p.b = -pwm) ∧
      (p.g = 0 ∨ p.g = pwm ∨ p.g = -pwm) := by
  unfold mix
  split <;> simp

/-- The clamp's result is in the guard band (43_pwm_clamper.md R90). -/
theorem clamp_mem {c : Config} (hc : c.wf) (v : Int) :
    (c.guard : Int) ≤ clamp c v ∧ clamp c v ≤ (c.period : Int) - (c.guard : Int) := by
  obtain ⟨-, -, h, -⟩ := hc
  exact sat_mem (by omega)

/-- The centre value (R92). -/
theorem clamp_zero {c : Config} (hc : c.wf) : clamp c 0 = ((c.period / 2 : Nat) : Int) := by
  obtain ⟨-, -, h, -⟩ := hc
  unfold clamp centreOf
  rw [zero_add]
  exact sat_of_mem (by omega) (by omega)

/-- The compare register holds the clamp's result: 16 bits are enough (R89). -/
theorem compareWord_toNat {c : Config} (hc : c.wf) (v : Int) : ((compareWord c v).toNat : Int) = clamp c v := by
  have h := clamp_mem hc v
  obtain ⟨-, hg, hp, hmax⟩ := hc
  exact toNat_ofInt_16 (by omega) (by omega)

/-- A compare register that a `TICK` has written is in the guard band (10_state.md R25 I6). -/
theorem compareWord_mem {c : Config} (hc : c.wf) (v : Int) :
    c.guard ≤ (compareWord c v).toNat ∧ (compareWord c v).toNat ≤ c.period - c.guard := by
  have h := clamp_mem hc v
  have e := compareWord_toNat hc v
  have := hc.2.2.1
  omega

end Sys2Proof.Machine
end

