-- ==== Sys2Proof/Laws/Decode.lean ====
section
/-! SUPPORT. The fields of an event word that was built from its fields, and what each event word decodes to. -/

namespace Sys2Proof

/-- An event word as a number. -/
theorem eventWord_toNat (op : EventOp) (arg : EventArg) : (eventWord op arg).toNat = op.toNat * 65536 + arg.toNat := by
  have h : (op ++ arg).toNat = op.toNat <<< 16 ||| arg.toNat := BitVec.toNat_append op arg
  rw [← Nat.shiftLeft_add_eq_or_of_lt arg.isLt, Nat.shiftLeft_eq] at h
  exact h

theorem opField_toNat (w : EventWord) : (opField w).toNat = w.toNat / 65536 := by
  have h := w.isLt
  rw [opField, BitVec.extractLsb'_toNat, Nat.shiftRight_eq_div_pow]
  omega

theorem argField_toNat (w : EventWord) : (argField w).toNat = w.toNat % 65536 := by
  rw [argField, BitVec.extractLsb'_toNat, Nat.shiftRight_zero]

@[simp] theorem opField_eventWord (op : EventOp) (arg : EventArg) : opField (eventWord op arg) = op := by
  apply BitVec.eq_of_toNat_eq
  have h := arg.isLt
  rw [opField_toNat, eventWord_toNat]
  omega

@[simp] theorem argField_eventWord (op : EventOp) (arg : EventArg) : argField (eventWord op arg) = arg := by
  apply BitVec.eq_of_toNat_eq
  have h := arg.isLt
  rw [argField_toNat, eventWord_toNat]
  omega

/-- A word is made of its two fields, and of nothing else. -/
theorem eventWord_fields (w : EventWord) : eventWord (opField w) (argField w) = w := by
  apply BitVec.eq_of_toNat_eq
  rw [eventWord_toNat, opField_toNat, argField_toNat]
  omega

theorem decodeEvent_tick (arg : EventArg) : decodeEvent (eventWord 0 arg) = .tick (hallOperand arg) := by
  simp [decodeEvent]

theorem decodeEvent_seten (arg : EventArg) : decodeEvent (eventWord 1 arg) = .seten (enableOperand arg) := by
  simp [decodeEvent]

theorem decodeEvent_setduty (arg : EventArg) : decodeEvent (eventWord 2 arg) = .setduty (dutyOperand arg) := by
  simp [decodeEvent]

theorem decodeEvent_getspeed (arg : EventArg) : decodeEvent (eventWord 3 arg) = .getspeed := by
  simp [decodeEvent]

end Sys2Proof
end

