-- ==== Sys2Proof/Laws/State.lean ====
section
/-! SUPPORT. One lemma for each field and each update of the state: what the field is after the update. -/

namespace Sys2Proof.Machine

variable (s : State)

@[simp] theorem State.setAcc_cfg (v : AccWord) : (s.setAcc v).cfg = s.cfg := rfl
@[simp] theorem State.setAcc_enabled (v : AccWord) : (s.setAcc v).enabled = s.enabled := rfl
@[simp] theorem State.setAcc_dutyCommand (v : AccWord) : (s.setAcc v).dutyCommand = s.dutyCommand := rfl
@[simp] theorem State.setAcc_acc (v : AccWord) : (s.setAcc v).acc = v := rfl
@[simp] theorem State.setAcc_lastSector (v : AccWord) : (s.setAcc v).lastSector = s.lastSector := rfl
@[simp] theorem State.setAcc_speedTickCount (v : AccWord) : (s.setAcc v).speedTickCount = s.speedTickCount := rfl
@[simp] theorem State.setAcc_speedPeriodTicks (v : AccWord) : (s.setAcc v).speedPeriodTicks = s.speedPeriodTicks := rfl
@[simp] theorem State.setAcc_cmpY (v : AccWord) : (s.setAcc v).cmpY = s.cmpY := rfl
@[simp] theorem State.setAcc_cmpB (v : AccWord) : (s.setAcc v).cmpB = s.cmpB := rfl
@[simp] theorem State.setAcc_cmpG (v : AccWord) : (s.setAcc v).cmpG = s.cmpG := rfl
@[simp] theorem State.setAcc_cmpWritten (v : AccWord) : (s.setAcc v).cmpWritten = s.cmpWritten := rfl
@[simp] theorem State.setAcc_pwmOutEn (v : AccWord) : (s.setAcc v).pwmOutEn = s.pwmOutEn := rfl
@[simp] theorem State.setAcc_reply (v : AccWord) : (s.setAcc v).reply = s.reply := rfl
@[simp] theorem State.setAcc_inbox (v : AccWord) : (s.setAcc v).inbox = s.inbox := rfl
@[simp] theorem State.setAcc_drawn (v : AccWord) : (s.setAcc v).drawn = s.drawn := rfl

@[simp] theorem State.setDuty_cfg (v : DutyWord) : (s.setDuty v).cfg = s.cfg := rfl
@[simp] theorem State.setDuty_enabled (v : DutyWord) : (s.setDuty v).enabled = s.enabled := rfl
@[simp] theorem State.setDuty_dutyCommand (v : DutyWord) : (s.setDuty v).dutyCommand = v := rfl
@[simp] theorem State.setDuty_acc (v : DutyWord) : (s.setDuty v).acc = s.acc := rfl
@[simp] theorem State.setDuty_lastSector (v : DutyWord) : (s.setDuty v).lastSector = s.lastSector := rfl
@[simp] theorem State.setDuty_speedTickCount (v : DutyWord) : (s.setDuty v).speedTickCount = s.speedTickCount := rfl
@[simp] theorem State.setDuty_speedPeriodTicks (v : DutyWord) : (s.setDuty v).speedPeriodTicks = s.speedPeriodTicks := rfl
@[simp] theorem State.setDuty_cmpY (v : DutyWord) : (s.setDuty v).cmpY = s.cmpY := rfl
@[simp] theorem State.setDuty_cmpB (v : DutyWord) : (s.setDuty v).cmpB = s.cmpB := rfl
@[simp] theorem State.setDuty_cmpG (v : DutyWord) : (s.setDuty v).cmpG = s.cmpG := rfl
@[simp] theorem State.setDuty_cmpWritten (v : DutyWord) : (s.setDuty v).cmpWritten = s.cmpWritten := rfl
@[simp] theorem State.setDuty_pwmOutEn (v : DutyWord) : (s.setDuty v).pwmOutEn = s.pwmOutEn := rfl
@[simp] theorem State.setDuty_reply (v : DutyWord) : (s.setDuty v).reply = s.reply := rfl
@[simp] theorem State.setDuty_inbox (v : DutyWord) : (s.setDuty v).inbox = s.inbox := rfl
@[simp] theorem State.setDuty_drawn (v : DutyWord) : (s.setDuty v).drawn = s.drawn := rfl

@[simp] theorem State.setSpeed_cfg (cnt per : TickWord) (last : SectorCode) : (s.setSpeed cnt per last).cfg = s.cfg := rfl
@[simp] theorem State.setSpeed_enabled (cnt per : TickWord) (last : SectorCode) : (s.setSpeed cnt per last).enabled = s.enabled := rfl
@[simp] theorem State.setSpeed_dutyCommand (cnt per : TickWord) (last : SectorCode) : (s.setSpeed cnt per last).dutyCommand = s.dutyCommand := rfl
@[simp] theorem State.setSpeed_acc (cnt per : TickWord) (last : SectorCode) : (s.setSpeed cnt per last).acc = s.acc := rfl
@[simp] theorem State.setSpeed_lastSector (cnt per : TickWord) (last : SectorCode) : (s.setSpeed cnt per last).lastSector = last := rfl
@[simp] theorem State.setSpeed_speedTickCount (cnt per : TickWord) (last : SectorCode) : (s.setSpeed cnt per last).speedTickCount = cnt := rfl
@[simp] theorem State.setSpeed_speedPeriodTicks (cnt per : TickWord) (last : SectorCode) : (s.setSpeed cnt per last).speedPeriodTicks = per := rfl
@[simp] theorem State.setSpeed_cmpY (cnt per : TickWord) (last : SectorCode) : (s.setSpeed cnt per last).cmpY = s.cmpY := rfl
@[simp] theorem State.setSpeed_cmpB (cnt per : TickWord) (last : SectorCode) : (s.setSpeed cnt per last).cmpB = s.cmpB := rfl
@[simp] theorem State.setSpeed_cmpG (cnt per : TickWord) (last : SectorCode) : (s.setSpeed cnt per last).cmpG = s.cmpG := rfl
@[simp] theorem State.setSpeed_cmpWritten (cnt per : TickWord) (last : SectorCode) : (s.setSpeed cnt per last).cmpWritten = s.cmpWritten := rfl
@[simp] theorem State.setSpeed_pwmOutEn (cnt per : TickWord) (last : SectorCode) : (s.setSpeed cnt per last).pwmOutEn = s.pwmOutEn := rfl
@[simp] theorem State.setSpeed_reply (cnt per : TickWord) (last : SectorCode) : (s.setSpeed cnt per last).reply = s.reply := rfl
@[simp] theorem State.setSpeed_inbox (cnt per : TickWord) (last : SectorCode) : (s.setSpeed cnt per last).inbox = s.inbox := rfl
@[simp] theorem State.setSpeed_drawn (cnt per : TickWord) (last : SectorCode) : (s.setSpeed cnt per last).drawn = s.drawn := rfl

@[simp] theorem State.setOutputStage_cfg (b : Bool) : (s.setOutputStage b).cfg = s.cfg := rfl
@[simp] theorem State.setOutputStage_enabled (b : Bool) : (s.setOutputStage b).enabled = s.enabled := rfl
@[simp] theorem State.setOutputStage_dutyCommand (b : Bool) : (s.setOutputStage b).dutyCommand = s.dutyCommand := rfl
@[simp] theorem State.setOutputStage_acc (b : Bool) : (s.setOutputStage b).acc = s.acc := rfl
@[simp] theorem State.setOutputStage_lastSector (b : Bool) : (s.setOutputStage b).lastSector = s.lastSector := rfl
@[simp] theorem State.setOutputStage_speedTickCount (b : Bool) : (s.setOutputStage b).speedTickCount = s.speedTickCount := rfl
@[simp] theorem State.setOutputStage_speedPeriodTicks (b : Bool) : (s.setOutputStage b).speedPeriodTicks = s.speedPeriodTicks := rfl
@[simp] theorem State.setOutputStage_cmpY (b : Bool) : (s.setOutputStage b).cmpY = s.cmpY := rfl
@[simp] theorem State.setOutputStage_cmpB (b : Bool) : (s.setOutputStage b).cmpB = s.cmpB := rfl
@[simp] theorem State.setOutputStage_cmpG (b : Bool) : (s.setOutputStage b).cmpG = s.cmpG := rfl
@[simp] theorem State.setOutputStage_cmpWritten (b : Bool) : (s.setOutputStage b).cmpWritten = s.cmpWritten := rfl
@[simp] theorem State.setOutputStage_pwmOutEn (b : Bool) : (s.setOutputStage b).pwmOutEn = b := rfl
@[simp] theorem State.setOutputStage_reply (b : Bool) : (s.setOutputStage b).reply = s.reply := rfl
@[simp] theorem State.setOutputStage_inbox (b : Bool) : (s.setOutputStage b).inbox = s.inbox := rfl
@[simp] theorem State.setOutputStage_drawn (b : Bool) : (s.setOutputStage b).drawn = s.drawn := rfl

@[simp] theorem State.setEnabledFlag_cfg (b : Bool) : (s.setEnabledFlag b).cfg = s.cfg := rfl
@[simp] theorem State.setEnabledFlag_enabled (b : Bool) : (s.setEnabledFlag b).enabled = b := rfl
@[simp] theorem State.setEnabledFlag_dutyCommand (b : Bool) : (s.setEnabledFlag b).dutyCommand = s.dutyCommand := rfl
@[simp] theorem State.setEnabledFlag_acc (b : Bool) : (s.setEnabledFlag b).acc = s.acc := rfl
@[simp] theorem State.setEnabledFlag_lastSector (b : Bool) : (s.setEnabledFlag b).lastSector = s.lastSector := rfl
@[simp] theorem State.setEnabledFlag_speedTickCount (b : Bool) : (s.setEnabledFlag b).speedTickCount = s.speedTickCount := rfl
@[simp] theorem State.setEnabledFlag_speedPeriodTicks (b : Bool) : (s.setEnabledFlag b).speedPeriodTicks = s.speedPeriodTicks := rfl
@[simp] theorem State.setEnabledFlag_cmpY (b : Bool) : (s.setEnabledFlag b).cmpY = s.cmpY := rfl
@[simp] theorem State.setEnabledFlag_cmpB (b : Bool) : (s.setEnabledFlag b).cmpB = s.cmpB := rfl
@[simp] theorem State.setEnabledFlag_cmpG (b : Bool) : (s.setEnabledFlag b).cmpG = s.cmpG := rfl
@[simp] theorem State.setEnabledFlag_cmpWritten (b : Bool) : (s.setEnabledFlag b).cmpWritten = s.cmpWritten := rfl
@[simp] theorem State.setEnabledFlag_pwmOutEn (b : Bool) : (s.setEnabledFlag b).pwmOutEn = s.pwmOutEn := rfl
@[simp] theorem State.setEnabledFlag_reply (b : Bool) : (s.setEnabledFlag b).reply = s.reply := rfl
@[simp] theorem State.setEnabledFlag_inbox (b : Bool) : (s.setEnabledFlag b).inbox = s.inbox := rfl
@[simp] theorem State.setEnabledFlag_drawn (b : Bool) : (s.setEnabledFlag b).drawn = s.drawn := rfl

@[simp] theorem State.markCompareWritten_cfg : s.markCompareWritten.cfg = s.cfg := rfl
@[simp] theorem State.markCompareWritten_enabled : s.markCompareWritten.enabled = s.enabled := rfl
@[simp] theorem State.markCompareWritten_dutyCommand : s.markCompareWritten.dutyCommand = s.dutyCommand := rfl
@[simp] theorem State.markCompareWritten_acc : s.markCompareWritten.acc = s.acc := rfl
@[simp] theorem State.markCompareWritten_lastSector : s.markCompareWritten.lastSector = s.lastSector := rfl
@[simp] theorem State.markCompareWritten_speedTickCount : s.markCompareWritten.speedTickCount = s.speedTickCount := rfl
@[simp] theorem State.markCompareWritten_speedPeriodTicks : s.markCompareWritten.speedPeriodTicks = s.speedPeriodTicks := rfl
@[simp] theorem State.markCompareWritten_cmpY : s.markCompareWritten.cmpY = s.cmpY := rfl
@[simp] theorem State.markCompareWritten_cmpB : s.markCompareWritten.cmpB = s.cmpB := rfl
@[simp] theorem State.markCompareWritten_cmpG : s.markCompareWritten.cmpG = s.cmpG := rfl
@[simp] theorem State.markCompareWritten_cmpWritten : s.markCompareWritten.cmpWritten = true := rfl
@[simp] theorem State.markCompareWritten_pwmOutEn : s.markCompareWritten.pwmOutEn = s.pwmOutEn := rfl
@[simp] theorem State.markCompareWritten_reply : s.markCompareWritten.reply = s.reply := rfl
@[simp] theorem State.markCompareWritten_inbox : s.markCompareWritten.inbox = s.inbox := rfl
@[simp] theorem State.markCompareWritten_drawn : s.markCompareWritten.drawn = s.drawn := rfl

@[simp] theorem State.setReply_cfg (r : Reply) : (s.setReply r).cfg = s.cfg := rfl
@[simp] theorem State.setReply_enabled (r : Reply) : (s.setReply r).enabled = s.enabled := rfl
@[simp] theorem State.setReply_dutyCommand (r : Reply) : (s.setReply r).dutyCommand = s.dutyCommand := rfl
@[simp] theorem State.setReply_acc (r : Reply) : (s.setReply r).acc = s.acc := rfl
@[simp] theorem State.setReply_lastSector (r : Reply) : (s.setReply r).lastSector = s.lastSector := rfl
@[simp] theorem State.setReply_speedTickCount (r : Reply) : (s.setReply r).speedTickCount = s.speedTickCount := rfl
@[simp] theorem State.setReply_speedPeriodTicks (r : Reply) : (s.setReply r).speedPeriodTicks = s.speedPeriodTicks := rfl
@[simp] theorem State.setReply_cmpY (r : Reply) : (s.setReply r).cmpY = s.cmpY := rfl
@[simp] theorem State.setReply_cmpB (r : Reply) : (s.setReply r).cmpB = s.cmpB := rfl
@[simp] theorem State.setReply_cmpG (r : Reply) : (s.setReply r).cmpG = s.cmpG := rfl
@[simp] theorem State.setReply_cmpWritten (r : Reply) : (s.setReply r).cmpWritten = s.cmpWritten := rfl
@[simp] theorem State.setReply_pwmOutEn (r : Reply) : (s.setReply r).pwmOutEn = s.pwmOutEn := rfl
@[simp] theorem State.setReply_reply (r : Reply) : (s.setReply r).reply = r := rfl
@[simp] theorem State.setReply_inbox (r : Reply) : (s.setReply r).inbox = s.inbox := rfl
@[simp] theorem State.setReply_drawn (r : Reply) : (s.setReply r).drawn = s.drawn := rfl

@[simp] theorem State.setPhaseCompare_cfg (ch : Channel) (v : CompareWord) : (s.setPhaseCompare ch v).cfg = s.cfg := by
  cases ch <;> rfl
@[simp] theorem State.setPhaseCompare_enabled (ch : Channel) (v : CompareWord) : (s.setPhaseCompare ch v).enabled = s.enabled := by
  cases ch <;> rfl
@[simp] theorem State.setPhaseCompare_dutyCommand (ch : Channel) (v : CompareWord) : (s.setPhaseCompare ch v).dutyCommand = s.dutyCommand := by
  cases ch <;> rfl
@[simp] theorem State.setPhaseCompare_acc (ch : Channel) (v : CompareWord) : (s.setPhaseCompare ch v).acc = s.acc := by
  cases ch <;> rfl
@[simp] theorem State.setPhaseCompare_lastSector (ch : Channel) (v : CompareWord) : (s.setPhaseCompare ch v).lastSector = s.lastSector := by
  cases ch <;> rfl
@[simp] theorem State.setPhaseCompare_speedTickCount (ch : Channel) (v : CompareWord) : (s.setPhaseCompare ch v).speedTickCount = s.speedTickCount := by
  cases ch <;> rfl
@[simp] theorem State.setPhaseCompare_speedPeriodTicks (ch : Channel) (v : CompareWord) : (s.setPhaseCompare ch v).speedPeriodTicks = s.speedPeriodTicks := by
  cases ch <;> rfl
@[simp] theorem State.setPhaseCompare_cmpWritten (ch : Channel) (v : CompareWord) : (s.setPhaseCompare ch v).cmpWritten = s.cmpWritten := by
  cases ch <;> rfl
@[simp] theorem State.setPhaseCompare_pwmOutEn (ch : Channel) (v : CompareWord) : (s.setPhaseCompare ch v).pwmOutEn = s.pwmOutEn := by
  cases ch <;> rfl
@[simp] theorem State.setPhaseCompare_reply (ch : Channel) (v : CompareWord) : (s.setPhaseCompare ch v).reply = s.reply := by
  cases ch <;> rfl
@[simp] theorem State.setPhaseCompare_inbox (ch : Channel) (v : CompareWord) : (s.setPhaseCompare ch v).inbox = s.inbox := by
  cases ch <;> rfl
@[simp] theorem State.setPhaseCompare_drawn (ch : Channel) (v : CompareWord) : (s.setPhaseCompare ch v).drawn = s.drawn := by
  cases ch <;> rfl

@[simp] theorem State.setPhaseCompare_y_cmpY (v : CompareWord) : (s.setPhaseCompare .y v).cmpY = v := rfl
@[simp] theorem State.setPhaseCompare_y_cmpB (v : CompareWord) : (s.setPhaseCompare .y v).cmpB = s.cmpB := rfl
@[simp] theorem State.setPhaseCompare_y_cmpG (v : CompareWord) : (s.setPhaseCompare .y v).cmpG = s.cmpG := rfl
@[simp] theorem State.setPhaseCompare_b_cmpY (v : CompareWord) : (s.setPhaseCompare .b v).cmpY = s.cmpY := rfl
@[simp] theorem State.setPhaseCompare_b_cmpB (v : CompareWord) : (s.setPhaseCompare .b v).cmpB = v := rfl
@[simp] theorem State.setPhaseCompare_b_cmpG (v : CompareWord) : (s.setPhaseCompare .b v).cmpG = s.cmpG := rfl
@[simp] theorem State.setPhaseCompare_g_cmpY (v : CompareWord) : (s.setPhaseCompare .g v).cmpY = s.cmpY := rfl
@[simp] theorem State.setPhaseCompare_g_cmpB (v : CompareWord) : (s.setPhaseCompare .g v).cmpB = s.cmpB := rfl
@[simp] theorem State.setPhaseCompare_g_cmpG (v : CompareWord) : (s.setPhaseCompare .g v).cmpG = v := rfl

@[simp] theorem State.phaseCompare_y : s.phaseCompare .y = s.cmpY := rfl
@[simp] theorem State.phaseCompare_b : s.phaseCompare .b = s.cmpB := rfl
@[simp] theorem State.phaseCompare_g : s.phaseCompare .g = s.cmpG := rfl

@[simp] theorem presentPhases_cfg (p : PhaseValues) : (presentPhases p s).cfg = s.cfg := by
  simp [presentPhases]
@[simp] theorem presentPhases_enabled (p : PhaseValues) : (presentPhases p s).enabled = s.enabled := by
  simp [presentPhases]
@[simp] theorem presentPhases_dutyCommand (p : PhaseValues) : (presentPhases p s).dutyCommand = s.dutyCommand := by
  simp [presentPhases]
@[simp] theorem presentPhases_acc (p : PhaseValues) : (presentPhases p s).acc = s.acc := by
  simp [presentPhases]
@[simp] theorem presentPhases_lastSector (p : PhaseValues) : (presentPhases p s).lastSector = s.lastSector := by
  simp [presentPhases]
@[simp] theorem presentPhases_speedTickCount (p : PhaseValues) : (presentPhases p s).speedTickCount = s.speedTickCount := by
  simp [presentPhases]
@[simp] theorem presentPhases_speedPeriodTicks (p : PhaseValues) : (presentPhases p s).speedPeriodTicks = s.speedPeriodTicks := by
  simp [presentPhases]
@[simp] theorem presentPhases_cmpY (p : PhaseValues) : (presentPhases p s).cmpY = compareWord s.cfg p.y := by
  simp [presentPhases]
@[simp] theorem presentPhases_cmpB (p : PhaseValues) : (presentPhases p s).cmpB = compareWord s.cfg p.b := by
  simp [presentPhases]
@[simp] theorem presentPhases_cmpG (p : PhaseValues) : (presentPhases p s).cmpG = compareWord s.cfg p.g := by
  simp [presentPhases]
@[simp] theorem presentPhases_cmpWritten (p : PhaseValues) : (presentPhases p s).cmpWritten = true := by
  simp [presentPhases]
@[simp] theorem presentPhases_pwmOutEn (p : PhaseValues) : (presentPhases p s).pwmOutEn = s.pwmOutEn := by
  simp [presentPhases]
@[simp] theorem presentPhases_reply (p : PhaseValues) : (presentPhases p s).reply = s.reply := by
  simp [presentPhases]
@[simp] theorem presentPhases_inbox (p : PhaseValues) : (presentPhases p s).inbox = s.inbox := by
  simp [presentPhases]
@[simp] theorem presentPhases_drawn (p : PhaseValues) : (presentPhases p s).drawn = s.drawn := by
  simp [presentPhases]

end Sys2Proof.Machine
end

