-- ==== Sys2Proof/Laws/Tick.lean ====
section
/-! SUPPORT. One lemma for each field and each branch of `TICK`: what the field is after the branch (R106, R107). -/

namespace Sys2Proof.Machine

variable (s : State) (hall : HallCode)

@[simp] theorem tickEnabled_cfg : (tickEnabled hall s).cfg =
    s.cfg := by
  simp [tickEnabled]
@[simp] theorem tickEnabled_enabled : (tickEnabled hall s).enabled =
    s.enabled := by
  simp [tickEnabled]
@[simp] theorem tickEnabled_dutyCommand : (tickEnabled hall s).dutyCommand =
    s.dutyCommand := by
  simp [tickEnabled]
@[simp] theorem tickEnabled_acc : (tickEnabled hall s).acc =
    BitVec.ofInt 32 (filt s.cfg.filterShift s.acc.toInt s.duty).1 := by
  simp [tickEnabled]
@[simp] theorem tickEnabled_lastSector : (tickEnabled hall s).lastSector =
    halldec hall := by
  simp [tickEnabled]
@[simp] theorem tickEnabled_speedTickCount : (tickEnabled hall s).speedTickCount =
    speedCount s.lastSector (halldec hall) s.speedTickCount := by
  simp [tickEnabled]
@[simp] theorem tickEnabled_speedPeriodTicks : (tickEnabled hall s).speedPeriodTicks =
    speedPeriod s.lastSector (halldec hall) s.speedTickCount s.speedPeriodTicks := by
  simp [tickEnabled]
@[simp] theorem tickEnabled_cmpY : (tickEnabled hall s).cmpY =
    compareWord s.cfg (mix (filt s.cfg.filterShift s.acc.toInt s.duty).2 (halldec hall)).y := by
  simp [tickEnabled]
@[simp] theorem tickEnabled_cmpB : (tickEnabled hall s).cmpB =
    compareWord s.cfg (mix (filt s.cfg.filterShift s.acc.toInt s.duty).2 (halldec hall)).b := by
  simp [tickEnabled]
@[simp] theorem tickEnabled_cmpG : (tickEnabled hall s).cmpG =
    compareWord s.cfg (mix (filt s.cfg.filterShift s.acc.toInt s.duty).2 (halldec hall)).g := by
  simp [tickEnabled]
@[simp] theorem tickEnabled_cmpWritten : (tickEnabled hall s).cmpWritten =
    true := by
  simp [tickEnabled]
@[simp] theorem tickEnabled_pwmOutEn : (tickEnabled hall s).pwmOutEn =
    s.pwmOutEn := by
  simp [tickEnabled]
@[simp] theorem tickEnabled_reply : (tickEnabled hall s).reply =
    s.reply := by
  simp [tickEnabled]
@[simp] theorem tickEnabled_inbox : (tickEnabled hall s).inbox =
    s.inbox := by
  simp [tickEnabled]
@[simp] theorem tickEnabled_drawn : (tickEnabled hall s).drawn =
    s.drawn := by
  simp [tickEnabled]

@[simp] theorem tickDisabled_cfg : (tickDisabled s).cfg = s.cfg := by
  simp [tickDisabled]
@[simp] theorem tickDisabled_enabled : (tickDisabled s).enabled = s.enabled := by
  simp [tickDisabled]
@[simp] theorem tickDisabled_dutyCommand : (tickDisabled s).dutyCommand = s.dutyCommand := by
  simp [tickDisabled]
@[simp] theorem tickDisabled_acc : (tickDisabled s).acc = s.acc := by
  simp [tickDisabled]
@[simp] theorem tickDisabled_lastSector : (tickDisabled s).lastSector = s.lastSector := by
  simp [tickDisabled]
@[simp] theorem tickDisabled_speedTickCount : (tickDisabled s).speedTickCount = s.speedTickCount := by
  simp [tickDisabled]
@[simp] theorem tickDisabled_speedPeriodTicks : (tickDisabled s).speedPeriodTicks = s.speedPeriodTicks := by
  simp [tickDisabled]
@[simp] theorem tickDisabled_cmpY : (tickDisabled s).cmpY = compareWord s.cfg 0 := by
  simp [tickDisabled]
@[simp] theorem tickDisabled_cmpB : (tickDisabled s).cmpB = compareWord s.cfg 0 := by
  simp [tickDisabled]
@[simp] theorem tickDisabled_cmpG : (tickDisabled s).cmpG = compareWord s.cfg 0 := by
  simp [tickDisabled]
@[simp] theorem tickDisabled_cmpWritten : (tickDisabled s).cmpWritten = true := by
  simp [tickDisabled]
@[simp] theorem tickDisabled_pwmOutEn : (tickDisabled s).pwmOutEn = s.pwmOutEn := by
  simp [tickDisabled]
@[simp] theorem tickDisabled_reply : (tickDisabled s).reply = s.reply := by
  simp [tickDisabled]
@[simp] theorem tickDisabled_inbox : (tickDisabled s).inbox = s.inbox := by
  simp [tickDisabled]
@[simp] theorem tickDisabled_drawn : (tickDisabled s).drawn = s.drawn := by
  simp [tickDisabled]

end Sys2Proof.Machine
end

