-- ==== Sys2Proof/Laws/Meanings.lean ====
section
/-! SUPPORT. Said once: how an operation ends, what each operation does, and what one step is. -/

namespace Sys2Proof.Machine

theorem complete_of_wf {s : State} (h : s.cfg.wf) (t : State) (r : Reply) : complete s t r = .next (t.setReply r) :=
  if_pos h

theorem complete_of_not_wf {s : State} (h : ¬ s.cfg.wf) (t : State) (r : Reply) :
    complete s t r = .refused .illFormedConfiguration :=
  if_neg h

/-- An operation answers a next state exactly when the configuration is well formed. -/
theorem complete_eq_next_iff {s t t' : State} {r : Reply} :
    complete s t r = .next t' ↔ s.cfg.wf ∧ t' = t.setReply r := by
  by_cases h : s.cfg.wf
  · rw [complete_of_wf h, Host.Outcome.next.injEq]
    exact ⟨fun e => And.intro h e.symm, fun e => e.2.symm⟩
  · rw [complete_of_not_wf h]
    exact Iff.intro (fun e => nomatch e) (fun e => absurd e.1 h)

/-- The state that an operation leaves, apart from the question whether it runs. -/
def effect : Instr → State → State
  | .tick hall, s => (if s.enabled then tickEnabled hall s else tickDisabled s).setReply .nothing
  | .seten b, s => ((s.setEnabledFlag b).setOutputStage b).setReply .nothing
  | .setduty v, s => (s.setDuty (clampDuty v)).setReply .nothing
  | .getspeed, s => s.setReply (.speedPeriodTicks s.speedPeriodTicks)
  | .hall0, s => s.setReply (.sector (halldec 0))
  | .hall1, s => s.setReply (.sector (halldec 1))
  | .hall2, s => s.setReply (.sector (halldec 2))
  | .hall3, s => s.setReply (.sector (halldec 3))
  | .hall4, s => s.setReply (.sector (halldec 4))
  | .hall5, s => s.setReply (.sector (halldec 5))
  | .hall6, s => s.setReply (.sector (halldec 6))
  | .hall7, s => s.setReply (.sector (halldec 7))
  | .sector0, s => s.setReply (.pattern (mix s.filteredDuty 0) false)
  | .sector1, s => s.setReply (.pattern (mix s.filteredDuty 1) true)
  | .sector2, s => s.setReply (.pattern (mix s.filteredDuty 2) false)
  | .sector3, s => s.setReply (.pattern (mix s.filteredDuty 3) false)
  | .sector4, s => s.setReply (.pattern (mix s.filteredDuty 4) false)
  | .sector5, s => s.setReply (.pattern (mix s.filteredDuty 5) false)
  | .sector6, s => s.setReply (.pattern (mix s.filteredDuty 6) false)
  | .sector7, s => s.setReply (.pattern (mix s.filteredDuty 7) false)
  | .channelY, s => s.setReply (.compare .y s.cmpY)
  | .channelB, s => s.setReply (.compare .b s.cmpB)
  | .channelG, s => s.setReply (.compare .g s.cmpG)

/-- Everything an operation can do: its effect under a well-formed configuration, one refusal under any other. -/
theorem exec_eq (i : Instr) (s : State) :
    exec i s = if s.cfg.wf then .next (effect i s) else .refused .illFormedConfiguration := by
  cases i <;> rfl

theorem exec_of_wf {s : State} (h : s.cfg.wf) (i : Instr) : exec i s = .next (effect i s) := by
  rw [exec_eq, if_pos h]

theorem exec_eq_next_iff {i : Instr} {s t : State} : exec i s = .next t ↔ s.cfg.wf ∧ t = effect i s := by
  rw [exec_eq]
  by_cases h : s.cfg.wf
  · rw [if_pos h, Host.Outcome.next.injEq]
    exact ⟨fun e => ⟨h, e.symm⟩, fun e => e.2.symm⟩
  · rw [if_neg h]
    exact Iff.intro (fun e => nomatch e) (fun e => absurd e.1 h)

theorem exec_tick_enabled {s : State} (hc : s.cfg.wf) (he : s.enabled = true) (hall : HallCode) :
    exec (.tick hall) s = .next ((tickEnabled hall s).setReply .nothing) := by
  rw [exec_of_wf hc]
  simp [effect, he]

theorem exec_tick_disabled {s : State} (hc : s.cfg.wf) (he : s.enabled = false) (hall : HallCode) :
    exec (.tick hall) s = .next ((tickDisabled s).setReply .nothing) := by
  rw [exec_of_wf hc]
  simp [effect, he]

/-- No operation changes the constants (00_scope.md R7). -/
@[simp] theorem effect_cfg (i : Instr) (s : State) : (effect i s).cfg = s.cfg := by
  cases i <;> simp [effect]
  split <;> simp

/-- No operation touches what is still queued. -/
@[simp] theorem effect_inbox (i : Instr) (s : State) : (effect i s).inbox = s.inbox := by
  cases i <;> simp [effect]
  split <;> simp

/-- No operation draws a free value: only the step does. -/
@[simp] theorem effect_drawn (i : Instr) (s : State) : (effect i s).drawn = s.drawn := by
  cases i <;> simp [effect]
  split <;> simp

theorem takeWord_cons {s : State} {w : CodeWord} {rest : List CodeWord} (h : s.inbox = w :: rest) :
    takeWord s = (w, { s with inbox := rest }) := by
  simp [takeWord, h]

theorem takeWord_nil {s : State} (h : s.inbox = []) :
    takeWord s = (.event (Config.agentEvent s.drawn), { s with drawn := s.drawn + 1 }) := by
  simp [takeWord, h]

@[simp] theorem takeWord_cfg (s : State) : (takeWord s).2.cfg = s.cfg := by
  unfold takeWord
  split <;> rfl

/-- Everything a step can do: it takes a word, and answers the effect of the operation that the word decodes to. -/
theorem step_eq_next_iff {s t : State} :
    step s = .next t ↔
      ∃ i, decode (takeWord s).1 = .ok i ∧ s.cfg.wf ∧ t = effect i (takeWord s).2 := by
  unfold step
  split
  · next i h => simp [h, exec_eq_next_iff]
  · next e h => simp [h]

end Sys2Proof.Machine
end

