-- ==== Sys2Proof/Laws/PerInstr.lean ====
section
/-! SUPPORT. For each operation: its encoding is a word of its own row of the opcode table. -/

namespace Sys2Proof.Laws.EncodesItsRow

/-- The encoding of an operation lies in its row's code space and has its row's fixed bits. -/
def Statement (i : Instr) : Prop := (tableRow i).holds (encode i)

theorem eventWord_and_mask (op : EventOp) (arg : EventArg) :
    (eventWord op arg).toNat &&& 0x30000 = op.toNat * 0x10000 := by
  have h : (eventWord op arg).toNat / 65536 = op.toNat := by
    have := arg.isLt
    rw [eventWord_toNat]
    omega
  apply Nat.eq_of_testBit_eq
  intro i
  rw [Nat.testBit_and, show (0x30000 : Nat) = 3 * 2 ^ 16 by norm_num, show (0x10000 : Nat) = 2 ^ 16 by norm_num,
    Nat.testBit_mul_two_pow, Nat.testBit_mul_two_pow]
  by_cases hi : 16 ≤ i
  · obtain ⟨j, rfl⟩ := Nat.exists_eq_add_of_le hi
    have hj : (eventWord op arg).toNat.testBit (16 + j) = op.toNat.testBit j := by
      rw [← h, show (65536 : Nat) = 2 ^ 16 by norm_num, Nat.testBit_div_two_pow, Nat.add_comm]
    have hop : op.toNat.testBit j = (op.toNat.testBit j && Nat.testBit 3 j) := by
      by_cases h2 : j < 2
      · interval_cases j <;> simp [show Nat.testBit 3 1 = true from rfl]
      · have : op.toNat < 2 ^ j := lt_of_lt_of_le op.isLt (Nat.pow_le_pow_right (by norm_num) (by omega))
        simp [Nat.testBit_lt_two_pow this]
    rw [hj]
    simp [← hop]
  · simp [hi]

theorem tick (h : HallCode) : Statement (.tick h) := ⟨_, rfl, eventWord_and_mask 0 _⟩
theorem seten (b : Bool) : Statement (.seten b) := ⟨_, rfl, eventWord_and_mask 1 _⟩
theorem setduty (v : Int) : Statement (.setduty v) := ⟨_, rfl, eventWord_and_mask 2 _⟩
theorem getspeed : Statement .getspeed := ⟨_, rfl, eventWord_and_mask 3 _⟩
theorem hall0 : Statement .hall0 := ⟨_, rfl, rfl⟩
theorem hall1 : Statement .hall1 := ⟨_, rfl, rfl⟩
theorem hall2 : Statement .hall2 := ⟨_, rfl, rfl⟩
theorem hall3 : Statement .hall3 := ⟨_, rfl, rfl⟩
theorem hall4 : Statement .hall4 := ⟨_, rfl, rfl⟩
theorem hall5 : Statement .hall5 := ⟨_, rfl, rfl⟩
theorem hall6 : Statement .hall6 := ⟨_, rfl, rfl⟩
theorem hall7 : Statement .hall7 := ⟨_, rfl, rfl⟩
theorem sector0 : Statement .sector0 := ⟨_, rfl, rfl⟩
theorem sector1 : Statement .sector1 := ⟨_, rfl, rfl⟩
theorem sector2 : Statement .sector2 := ⟨_, rfl, rfl⟩
theorem sector3 : Statement .sector3 := ⟨_, rfl, rfl⟩
theorem sector4 : Statement .sector4 := ⟨_, rfl, rfl⟩
theorem sector5 : Statement .sector5 := ⟨_, rfl, rfl⟩
theorem sector6 : Statement .sector6 := ⟨_, rfl, rfl⟩
theorem sector7 : Statement .sector7 := ⟨_, rfl, rfl⟩
theorem channelY : Statement .channelY := ⟨_, rfl, rfl⟩
theorem channelB : Statement .channelB := ⟨_, rfl, rfl⟩
theorem channelG : Statement .channelG := ⟨_, rfl, rfl⟩

end Sys2Proof.Laws.EncodesItsRow
end

