-- ==== Sys2Proof/Laws/Runs.lean ====
section
/-! SUPPORT. How a run over chosen operations unfolds. -/

namespace Sys2Proof.Machine

theorem runAll_cons (i : Instr) (is : List Instr) (s : State) :
    runAll (i :: is) s = if s.cfg.wf then runAll is (effect i s) else .refused .illFormedConfiguration := by
  rw [runAll, exec_eq]
  by_cases h : s.cfg.wf
  · simp only [if_pos h]
  · simp only [if_neg h]

theorem runAll_append (is js : List Instr) (s : State) :
    runAll (is ++ js) s =
      match runAll is s with
      | .next t => runAll js t
      | .fault f => .fault f
      | .refused r => .refused r := by
  induction is generalizing s with
  | nil => rfl
  | cons i is ih =>
    rw [List.cons_append, runAll_cons, runAll_cons]
    by_cases h : s.cfg.wf
    · rw [if_pos h, if_pos h, ih]
    · rw [if_neg h, if_neg h]

theorem runAll_cfg {is : List Instr} {s t : State} (h : runAll is s = .next t) : t.cfg = s.cfg := by
  induction is generalizing s with
  | nil =>
    cases h
    rfl
  | cons i is ih =>
    rw [runAll_cons] at h
    split at h
    · rw [ih h, effect_cfg]
    · cases h

/-- The controller state after an operation (60_exceptions.md R130). -/
@[simp] theorem effect_enabled (i : Instr) (s : State) : (effect i s).enabled = modeAfter s.enabled i := by
  cases i <;> simp [effect, modeAfter]
  split <;> simp

/-- An operation that samples no Hall code leaves the filter, the sector history and the speed registers (R26, R107). -/
theorem effect_of_sampledBy_nil {i : Instr} {s : State} (h : sampledBy s.enabled i = []) :
    (effect i s).acc = s.acc ∧ (effect i s).lastSector = s.lastSector ∧
      (effect i s).speedTickCount = s.speedTickCount ∧ (effect i s).speedPeriodTicks = s.speedPeriodTicks := by
  cases i <;> simp [effect]
  split <;> simp_all [sampledBy]

/-- Only an Enabled `TICK` samples, and it samples one Hall code (10_state.md R31). -/
theorem sampledBy_eq_cons {e : Bool} {i : Instr} {b : HallCode} {l : List HallCode} (h : sampledBy e i = b :: l) :
    i = .tick b ∧ l = [] ∧ e = true := by
  cases i with
  | tick x =>
    cases e <;> simp [sampledBy] at h ⊢
    exact ⟨h.1, h.2⟩
  | _ => cases h

/-- Under a well-formed configuration every run ends in a next state, with the controller state its operations leave. -/
theorem runAll_of_wf (is : List Instr) {s : State} (h : s.cfg.wf) :
    ∃ t, runAll is s = .next t ∧ t.cfg = s.cfg ∧ t.enabled = modeAfterAll s.enabled is := by
  induction is generalizing s with
  | nil => exact ⟨s, rfl, rfl, rfl⟩
  | cons i is ih =>
    obtain ⟨t, ht, hc, he⟩ := ih (s := effect i s) (by rwa [effect_cfg])
    rw [runAll_cons, if_pos h]
    exact ⟨t, ht, by rw [hc, effect_cfg], by rw [he, effect_enabled, modeAfterAll]⟩

end Sys2Proof.Machine
end

