-- ==== Sys2Proof/Tests/Slice0.lean ====
section
/-! SUPPORT. The model's own tests, and for each obligation that has hypotheses a witness that meets them. Expected
values are taken from 95_test_vectors.md (named by vector) and from the encodings of 30_encoding.md. -/

namespace Sys2Proof.Machine.Tests

open Sys2Proof Sys2Proof.Machine

-- ==== Helpers ====

/-- A state under the constants 2000 / 10 / `shift`, with the registers of 95_test_vectors.md's tables. -/
def board (shift : Nat) (enabled : Bool) (duty acc : Int) (last cnt per : Nat) (y b g : Nat) : State where
  cfg := { period := 2000, guard := 10, filterShift := shift }
  enabled := enabled
  dutyCommand := BitVec.ofInt 16 duty
  acc := BitVec.ofInt 32 acc
  lastSector := BitVec.ofNat 3 last
  speedTickCount := BitVec.ofNat 32 cnt
  speedPeriodTicks := BitVec.ofNat 32 per
  cmpY := BitVec.ofNat 16 y
  cmpB := BitVec.ofNat 16 b
  cmpG := BitVec.ofNat 16 g
  cmpWritten := true
  pwmOutEn := enabled
  reply := .nothing
  inbox := []
  drawn := 1

/-- The registers after an operation, in the order of 95_test_vectors.md section 2.9. -/
def registers (o : Host.Outcome State Fault Refusal) : Option (Bool × Int × Int × Nat × Nat × Nat) :=
  match o with
  | .next t => some (t.enabled, t.dutyCommand.toInt, t.acc.toInt, t.lastSector.toNat, t.speedTickCount.toNat,
      t.speedPeriodTicks.toNat)
  | .fault _ => none
  | .refused _ => none

/-- The compare registers and the output stage after an operation. -/
def legs (o : Host.Outcome State Fault Refusal) : Option (Nat × Nat × Nat × Bool) :=
  match o with
  | .next t => some (t.cmpY.toNat, t.cmpB.toNat, t.cmpG.toNat, t.pwmOutEn)
  | .fault _ => none
  | .refused _ => none

/-- What an operation gave back. -/
def replyOf (o : Host.Outcome State Fault Refusal) : Option Reply :=
  match o with
  | .next t => some t.reply
  | .fault _ => none
  | .refused _ => none

/-- The refusal of an operation. -/
def refusal (o : Host.Outcome State Fault Refusal) : Option Refusal :=
  match o with
  | .next _ => none
  | .fault _ => none
  | .refused r => some r

-- ==== Well-formedness: one ill-formed term for each check ====

theorem test_wf_duty_above : ¬ (Instr.setduty 32768).wf := by decide
theorem test_wf_duty_below : ¬ (Instr.setduty (-32769)).wf := by decide
theorem test_wf_duty_ends : (Instr.setduty 32767).wf ∧ (Instr.setduty (-32768)).wf := by decide
theorem test_wf_shift : ¬ ({ period := 2000, guard := 10, filterShift := 22 } : Config).wf := by decide
theorem test_wf_guard : ¬ ({ period := 2000, guard := 0, filterShift := 12 } : Config).wf := by decide
theorem test_wf_period_small : ¬ ({ period := 19, guard := 10, filterShift := 12 } : Config).wf := by decide
theorem test_wf_period_large : ¬ ({ period := 65536, guard := 10, filterShift := 12 } : Config).wf := by decide
theorem test_wf_ends : ({ period := 20, guard := 10, filterShift := 21 } : Config).wf ∧
    ({ period := 65535, guard := 1, filterShift := 0 } : Config).wf := by decide

-- ==== Decoding: a word of each row, bit by bit from R49 to R54 and the opcode table ====

/-- `00xxxxxxxxxxxxxhhh`, with the ignored bits set in one word and clear in the other. -/
theorem test_decode_tick : decode (.event 0b001111111111111101) = .ok (.tick 5) ∧
    decode (.event 0b000000000000000100) = .ok (.tick 4) := by decide
/-- `01xxxxxxxxxxxxxxxb`, V-SE5 and V-SE6. -/
theorem test_decode_seten : decode (.event 0b011111111111111111) = .ok (.seten true) ∧
    decode (.event 0b011111111111111110) = .ok (.seten false) := by decide
/-- `10vvvvvvvvvvvvvvvv`, V-SD2, V-SD3, V-SD10, V-SD11. -/
theorem test_decode_setduty : decode (.event 0b100000000111110100) = .ok (.setduty 500) ∧
    decode (.event 0b101111111000001100) = .ok (.setduty (-500)) ∧
    decode (.event 0x27FFF) = .ok (.setduty 32767) ∧ decode (.event 0x28000) = .ok (.setduty (-32768)) := by decide
/-- `11xxxxxxxxxxxxxxxx`, V-G1 and V-G3. -/
theorem test_decode_getspeed : decode (.event 0b110000000000000000) = .ok .getspeed ∧
    decode (.event 0x3ABCD) = .ok .getspeed := by decide
theorem test_decode_hall : decode (.hall 0b000) = .ok .hall0 ∧ decode (.hall 0b001) = .ok .hall1 ∧
    decode (.hall 0b010) = .ok .hall2 ∧ decode (.hall 0b011) = .ok .hall3 ∧ decode (.hall 0b100) = .ok .hall4 ∧
    decode (.hall 0b101) = .ok .hall5 ∧ decode (.hall 0b110) = .ok .hall6 ∧ decode (.hall 0b111) = .ok .hall7 := by
  decide
theorem test_decode_sector : decode (.sector 0b000) = .ok .sector0 ∧ decode (.sector 0b001) = .ok .sector1 ∧
    decode (.sector 0b010) = .ok .sector2 ∧ decode (.sector 0b011) = .ok .sector3 ∧
    decode (.sector 0b100) = .ok .sector4 ∧ decode (.sector 0b101) = .ok .sector5 ∧
    decode (.sector 0b110) = .ok .sector6 ∧ decode (.sector 0b111) = .ok .sector7 := by decide
theorem test_decode_channel : decode (.channel 0b00) = .ok .channelY ∧ decode (.channel 0b01) = .ok .channelB ∧
    decode (.channel 0b10) = .ok .channelG ∧ decode (.channel 0b11) = .error .unusedChannelCode := by decide
/-- The host's numbers: an event word in three bytes, a Hall code in one; a byte above 7 is no code. -/
theorem test_decode_table_word : decodeTableWord 24 0x2FC18 = some (.setduty (-1000)) ∧
    decodeTableWord 8 6 = some .hall6 ∧ decodeTableWord 24 0x40000 = none ∧ decodeTableWord 8 8 = none := by decide

-- ==== The stages ====

/-- V-F2, V-F9, V-F19, V-F20, V-F24: the shift of a negative accumulator rounds down. -/
theorem test_filt_negative : filt 12 0 (-1000) = (-1000, -1) ∧ filt 12 (-4097) 0 = (-4095, -1) ∧
    filt 1 (-1750) 300 = (-575, -288) ∧ filt 1 (-575) 300 = (13, 6) ∧
    filt 21 (-2097152000) (-1000) = (-2097152000, -1000) := by decide
/-- V-F1, V-F12, V-F15, V-F17, V-F21, V-F23. -/
theorem test_filt : filt 12 0 1000 = (1000, 0) ∧ filt 12 4100095 (-1000) = (4098095, 1000) ∧
    filt 12 4096000 999 = (4095999, 999) ∧ filt 2 500 500 = (875, 218) ∧ filt 0 123 (-77) = (-77, -77) ∧
    filt 21 2099249151 1000 = (2099249151, 1000) := by decide
/-- V-M3, V-M8, V-M10, V-M20. -/
theorem test_mix : mix 500 2 = ⟨-500, 500, 0⟩ ∧ mix 500 7 = ⟨0, 0, 0⟩ ∧ mix (-500) 1 = ⟨0, -500, 500⟩ ∧
    mix 1000 6 = ⟨1000, 0, -1000⟩ := by decide
/-- V-CL8, V-CL12, V-CL15, V-CL19, V-CL22, V-CL34, V-CL42, V-CL53. -/
theorem test_clamp : clamp ⟨2000, 10, 12⟩ 991 = 1990 ∧ clamp ⟨2000, 10, 12⟩ (-991) = 10 ∧
    clamp ⟨2000, 10, 12⟩ (-5000) = 10 ∧ clamp ⟨2001, 10, 12⟩ 992 = 1991 ∧ clamp ⟨2001, 10, 12⟩ 1000 = 1991 ∧
    clamp ⟨20, 10, 12⟩ 1 = 10 ∧ clamp ⟨65535, 10, 12⟩ 32759 = 65525 ∧ clamp ⟨2000, 1, 12⟩ (-1000) = 1 := by decide
/-- V-S1, V-S2, V-S5, V-S7, V-S9, V-S13: entries from 6, 2 and 7, a stay, a glitch, and the wrap. -/
theorem test_speed : speedCount 6 1 6 = 1 ∧ speedPeriod 6 1 6 0 = 6 ∧ speedCount 1 1 5 = 6 ∧
    speedPeriod 1 1 5 9 = 9 ∧ speedPeriod 2 1 100 50 = 100 ∧ speedCount 1 0 1 = 2 ∧
    speedCount 5 6 4294967295 = 0 ∧ speedPeriod 7 1 3 2 = 3 := by decide
/-- R60: A weighs 1, B 2, C 4; the example A = 0, B = 0, C = 1 gives 4. -/
theorem test_pack_hall : packHall false false true = 4 ∧ packHall true true false = 3 := by decide

-- ==== The operations ====

/-- V-T3: full drive, sector 1, an entry, both driven legs saturate. -/
theorem test_tick_enabled : registers (exec (.tick 4) (board 12 true 1000 4096000 6 6 6 0 0 0)) =
      some (true, 1000, 4096000, 1, 1, 6) ∧
    legs (exec (.tick 4) (board 12 true 1000 4096000 6 6 6 0 0 0)) = some (1000, 1990, 10, true) := by decide
/-- V-T2: the Disabled branch leaves a full accumulator alone. -/
theorem test_tick_disabled : registers (exec (.tick 7) (board 12 false 777 (-4096000) 5 9 8 10 1000 1990)) =
      some (false, 777, -4096000, 5, 9, 8) ∧
    legs (exec (.tick 7) (board 12 false 777 (-4096000) 5 9 8 10 1000 1990)) = some (1000, 1000, 1000, false) := by decide
/-- V-SE3 and P2's event 6: the stage goes off at once, the live compare values stay. -/
theorem test_seten_off : legs (exec (.seten false) (board 1 true (-1000) (-1750) 1 1 2 1000 125 1875)) =
      some (1000, 125, 1875, false) ∧
    registers (exec (.seten false) (board 1 true (-1000) (-1750) 1 1 2 1000 125 1875)) =
      some (false, -1000, -1750, 1, 1, 2) := by decide
/-- V-SE1 with P2's event 10: enabling clears nothing. -/
theorem test_seten_on : registers (exec (.seten true) (board 1 false 300 (-1750) 1 1 2 1000 1000 1000)) =
    some (true, 300, -1750, 1, 1, 2) := by decide
/-- V-SD4, V-SD5, V-SD7, V-SD11, and R114's 40000, which is clamped before it is narrowed. -/
theorem test_setduty : (clampDuty 1000).toInt = 1000 ∧ (clampDuty 1001).toInt = 1000 ∧
    (clampDuty (-1001)).toInt = -1000 ∧ (clampDuty (-32768)).toInt = -1000 ∧ (clampDuty 40000).toInt = 1000 := by
  decide
/-- P2's event 8: a command given while Disabled is only stored. -/
theorem test_setduty_disabled : registers (exec (.setduty 300) (board 1 false (-1000) (-1750) 1 1 2 1000 1000 1000)) =
    some (false, 300, -1750, 1, 1, 2) := by decide
/-- V-G2. -/
theorem test_getspeed : replyOf (exec .getspeed (board 12 true 500 0 2 2 6 0 0 0)) = some (.speedPeriodTicks 6) := by
  decide
/-- V-H2, V-H3 and V-H8. -/
theorem test_hall_rows : replyOf (exec .hall1 (board 12 true 0 0 0 0 0 0 0 0)) = some (.sector 3) ∧
    replyOf (exec .hall2 (board 12 true 0 0 0 0 0 0 0 0)) = some (.sector 5) ∧
    replyOf (exec .hall7 (board 12 true 0 0 0 0 0 0 0 0)) = some (.sector 0) := by decide
/-- P1's event 4: `acc` 875 at shift 2 is 218, and sector 2 drives (-218, 218, 0); sector 1 is the reference. -/
theorem test_sector_rows : replyOf (exec .sector2 (board 2 true 500 875 2 2 0 0 0 0)) =
      some (.pattern ⟨-218, 218, 0⟩ false) ∧
    replyOf (exec .sector1 (board 2 true 500 875 2 2 0 0 0 0)) = some (.pattern ⟨0, 218, -218⟩ true) := by decide
/-- R54: Y = 0, B = 1, G = 2, on the compare registers of P1's event 4. -/
theorem test_channel_rows : replyOf (exec .channelY (board 2 true 500 875 2 2 0 782 1218 1000)) =
      some (.compare .y 782) ∧
    replyOf (exec .channelG (board 2 true 500 875 2 2 0 782 1218 1000)) = some (.compare .g 1000) := by decide
/-- R8: no step under a shift of 22. -/
theorem test_ill_formed_configuration : refusal (exec .getspeed (board 22 true 0 0 0 0 0 0 0 0)) =
    some .illFormedConfiguration := by decide

-- ==== The step, the ports and the scripts ====

theorem test_step_runs_the_placed_word :
    registers (step ((board 12 false 0 0 0 0 0 0 0 0).withFetchWord 24 0x201F4)) = some (false, 500, 0, 0, 0, 0) := by
  decide
/-- The first step from reset runs a placed word, whatever the compare registers hold. -/
theorem test_step_from_reset : registers (step (State.reset.withFetchWord 24 0x10001)) =
    some (true, 0, 0, 0, 0, 0) := by decide
theorem test_step_refuses_channel_three :
    refusal (step { board 12 false 0 0 0 0 0 0 0 0 with inbox := [.channel 3] }) = some .unusedChannelCode := by decide
/-- R125: both strobes in one cycle, Hall A and C active, `SETDUTY 500` on the command port. -/
theorem test_ports_tick_first : portWords ⟨false, true, true, false, true, true, 2, 500⟩ =
    [.event 0x00005, .event 0x201F4] := by decide
/-- R56 (e): `cmd_stb` with `cmd_op` = 0 issues nothing. -/
theorem test_ports_no_command : portWords ⟨false, false, true, true, true, true, 0, 500⟩ = [] := by decide
/-- The event words of program P3's beginning: sectors 1, 2, 3, 4, 5, 6 are the codes 4, 5, 1, 3, 2, 6. -/
theorem test_script_words : (Script.line (.setduty 500) (.line .start (.rep 1 (.line (.tickSector 1)
      (.line (.tickSector 2) (.line (.tickSector 3) (.line (.tickSector 4) (.line (.tickSector 5)
        (.line (.tickSector 6) .done)))))) .done))).events.map encode =
    [.event 0x201F4, .event 0x10001, .event 4, .event 5, .event 1, .event 3, .event 2, .event 6] := by decide
/-- R59: a block is written out n times. -/
theorem test_script_repeat : (Script.rep 2 (.line .tickBare .done) (.line .stop .done)).events =
    [.tick 0, .tick 0, .seten false] := by decide

-- ==== Witnesses: states and operands that meet the hypotheses of the obligations ====

/-- An Enabled state in the middle of a run, P1's event 4 (shift 2). -/
abbrev running : State := board 2 true 500 875 2 2 0 782 1218 1000

/-- A Disabled state with a kept accumulator, P2's event 7 (shift 1). -/
abbrev halted : State := board 1 false (-1000) (-1750) 1 1 2 1000 1000 1000

theorem running_inv : running.Inv :=
  ⟨by decide, by decide, by decide, by decide, by decide, by decide, by decide⟩

theorem halted_inv : halted.Inv :=
  ⟨by decide, by decide, by decide, by decide, by decide, by decide, by decide⟩

/-- V-T5's state: the lowest accumulator of R25 I2, and a command at its lower bound. -/
theorem extreme_inv : (board 12 true (-1000) (-4096000) 0 2 6 10 1000 1990).Inv :=
  ⟨by decide, by decide, by decide, by decide, by decide, by decide, by decide⟩

theorem witness_DecodeOfEncodeIsTheOperation : (Instr.setduty (-32768)).wf ∧ (Instr.tick 7).wf := by decide

theorem witness_DecodedWordHasItsRowOnly : decode (.channel 2) = .ok .channelG ∧
    decode (.event 0x3FFFF) = .ok .getspeed := by decide

theorem witness_StepRunsTheDecodedOperation :
    ({ running with inbox := [.event 0x10000] } : State).inbox = .event 0x10000 :: [] ∧
    decode (.event 0x10000) = .ok (.seten false) ∧ decode (.channel 3) = .error .unusedChannelCode ∧
    running.inbox = [] ∧ decodeTableWord 24 0x10000 = some (.seten false) := by decide

theorem witness_QueuedWordsRunInOrder : ∀ i ∈ [Instr.setduty 500, .seten true, .tick 4], i.wf := by decide

theorem witness_ScriptsRunAsWritten : running.inbox = [] ∧
    (Script.rep 2 (.line (.setduty 32767) .done) (.line .getspeed .done)).events =
      [.setduty 32767, .setduty 32767, .getspeed] ∧
    ∀ i ∈ [Instr.setduty 32767, .setduty 32767, .getspeed], i.wf := by decide

theorem witness_EventsAlwaysHaveANextState : running.Inv ∧ (Instr.tick 7).isEvent = true ∧
    (∀ w ∈ running.inbox, ∃ e, w = CodeWord.event e) ∧
    (∀ w ∈ [CodeWord.event 0x3FFFF], ∃ e, w = CodeWord.event e) ∧ ¬ (board 22 true 0 0 0 0 0 0 0 0).cfg.wf :=
  ⟨running_inv, by decide, by simp [board], by simp, by decide⟩

theorem witness_StepKeepsTheInvariants :
    ∃ t, ({ running with inbox := [.event 0x00004] } : State).Inv ∧
      step { running with inbox := [.event 0x00004] } = .next t :=
  ⟨_, ⟨by decide, by decide, by decide, by decide, by decide, by decide, by decide⟩,
    step_eq_next_iff.2 ⟨.tick 4, rfl, by decide, rfl⟩⟩

theorem witness_ResetMeetsTheInvariants : ({ period := 20, guard := 10, filterShift := 21 } : Config).wf := by decide

theorem witness_RunsFromResetMeetTheInvariants :
    ∃ t, Config.standard.wf ∧
      Host.Core.run Sys2Proof.core 1 { State.resetWith Config.standard 0 with inbox := [.event 0x30000] } = .next t :=
  ⟨_, by decide, rfl⟩

theorem witness_ConstantsNeverChange :
    ∃ t, Host.Core.run Sys2Proof.core 1 { running with inbox := [.event 0x30000] } = .next t := ⟨_, rfl⟩

theorem witness_EveryRegisterHasOneWriter :
    (∃ t, exec (.tick 4) running = .next t) ∧ (∀ b, Instr.tick 4 ≠ .seten b) ∧ (∀ v, Instr.tick 4 ≠ .setduty v) ∧
    (∀ h, Instr.getspeed ≠ .tick h) ∧ (∃ t, exec .getspeed running = .next t) ∧ running.Inv ∧ dutyInRange (-1000) ∧
    dutyInRange 1000 :=
  ⟨⟨_, exec_of_wf (by decide) _⟩, by simp, by simp, by simp, ⟨_, exec_of_wf (by decide) _⟩, running_inv, by decide,
    by decide⟩

theorem witness_EveryOperationRunsInBothModes :
    running.cfg.wf ∧ (∃ t, exec (.seten false) running = .next t ∧ t.enabled ≠ running.enabled) ∧
    (∃ t, step { running with inbox := [.event 0x10000] } = .next t ∧ t.enabled ≠ running.enabled) :=
  ⟨by decide, ⟨_, exec_of_wf (by decide) _, by decide⟩,
    ⟨_, step_eq_next_iff.2 ⟨.seten false, rfl, by decide, rfl⟩, by decide⟩⟩

theorem witness_ResetLeavesZeroAndDisabled :
    (⟨true, true, false, false, false, true, 1, 1⟩ : PortInputs).rst = true ∧
    State.reset = State.resetWith Config.standard 0 := ⟨rfl, rfl⟩

/-- A cycle with both strobes, and `GETSPEED` on the command port. -/
abbrev bothStrobes : PortInputs := ⟨false, true, true, false, true, true, 3, 0⟩

/-- A cycle with the command strobe only, and `cmd_op` = 0. -/
abbrev emptyCommand : PortInputs := ⟨false, false, true, true, true, true, 0, 1⟩

/-- A cycle with both strobes, and `cmd_op` = 0: the `TICK` stands alone. -/
abbrev tickAlone : PortInputs := ⟨false, true, false, true, true, true, 0, 1⟩

/-- A cycle with the command strobe only, and `SETEN(1)`. -/
abbrev commandAlone : PortInputs := ⟨false, false, true, true, true, true, 1, 1⟩

theorem witness_PortsIssueTheTickFirst :
    (bothStrobes.rst = false ∧ bothStrobes.tickStb = true ∧ bothStrobes.cmdStb = true ∧ bothStrobes.cmdOp ≠ 0) ∧
    (tickAlone.rst = false ∧ tickAlone.tickStb = true ∧ (tickAlone.cmdStb = false ∨ tickAlone.cmdOp = 0)) ∧
    (commandAlone.rst = false ∧ commandAlone.tickStb = false ∧ commandAlone.cmdStb = true ∧
      commandAlone.cmdOp ≠ 0) ∧
    (emptyCommand.rst = false ∧ emptyCommand.tickStb = false ∧
      (emptyCommand.cmdStb = false ∨ emptyCommand.cmdOp = 0)) := by decide

theorem witness_OutputPortsFollowTheOperations : running.cfg.wf ∧ halted.cfg.wf ∧ halted.enabled = false ∧
    running.Inv ∧ running.enabled = true ∧ Instr.hall5.isEvent = false :=
  ⟨by decide, by decide, rfl, running_inv, rfl, rfl⟩

theorem witness_OutputsForgetTheResetDraws : Config.standard.wf := by decide

theorem witness_EnablingBeforeTheFirstTickIsHazardous : Config.standard.wf := by decide

theorem witness_FilterStaysInRange : (21 : Nat) ≤ 21 ∧ accInRange 21 2099249151 ∧ accInRange 21 (-2097152000) ∧
    accInRange 0 1000 ∧ dutyInRange (-1000) ∧ dutyInRange 1000 := by decide

theorem witness_FilterApproachesWithoutOvershoot : asr 4095999 12 < 1000 ∧ 999 < asr 4096000 12 := by decide

theorem witness_FilterFromRest : (0 : Int) ≤ 4095 ∧ (4095 : Int) < ((2 ^ 12 : Nat) : Int) ∧
    -((2 ^ 12 : Nat) : Int) ≤ -4096 ∧ (-1 : Int) < 0 := by decide

theorem witness_MixPatternsAreBalanced : (6 : SectorCode) ≠ 0 ∧ (6 : SectorCode) ≠ 7 ∧ (1 : Int) ≠ 0 ∧
    (3 : SectorCode).toNat ∈ [1, 2, 3] := by decide

/-- Values at each threshold of the clamp, for an odd `PERIOD` too (V-CL16 to V-CL23, V-CL33). -/
theorem witness_ClampSaturatesAtTheGuardBand :
    (⟨2001, 10, 12⟩ : Config).wf ∧ (2 : Int) * 10 < 2001 ∧ (-991 : Int) ≤ 992 ∧
    ((10 : Int) - 1000 ≤ -990 ∧ (-990 : Int) ≤ 2001 - 10 - 1000) ∧ (-990 : Int) ≤ 10 - 1000 ∧
    (2001 : Int) - 10 - 1000 ≤ 991 ∧ clamp ⟨2001, 10, 12⟩ (-990) = 10 ∧ clamp ⟨2001, 10, 12⟩ 991 = 1991 ∧
    (⟨20, 10, 12⟩ : Config).wf ∧ clamp ⟨20, 10, 12⟩ 1 = 10 := by decide

theorem witness_SpeedCapturesAtEntriesIntoSectorOne :
    ((6 : SectorCode) ≠ 1 ∧ (1 : SectorCode) = 1) ∧ ¬ ((1 : SectorCode) ≠ 1 ∧ (1 : SectorCode) = 1) ∧
    (speedCount 5 6 4294967295).toNat = 0 := by decide

theorem witness_EnabledTickIsTheControlStep : running.Inv ∧ running.enabled = true := ⟨running_inv, rfl⟩

theorem witness_DisabledTickOnlyCentresTheLegs : halted.cfg.wf ∧ halted.enabled = false := by decide

theorem witness_InvalidHallCodeGivesNoDrive : running.Inv ∧ running.enabled = true ∧
    ((0 : HallCode) = 0 ∨ (0 : HallCode) = 7) ∧ ((7 : HallCode) = 0 ∨ (7 : HallCode) = 7) :=
  ⟨running_inv, rfl, by decide, by decide⟩

theorem witness_NoLegReachesARail : running.cfg.wf ∧ halted.cfg.wf := by decide

theorem witness_HallInputsAreIgnoredWhileDisabled : halted.enabled = false ∧
    (∀ i ∈ [Instr.tick 4, .setduty 300, .tick 5], i ≠ .seten true) ∧
    List.Forall₂ (fun i j => i = j ∨ ∃ h h', i = Instr.tick h ∧ j = .tick h')
      [.tick 4, .setduty 300, .tick 5] [.tick 7, .setduty 300, .tick 0] :=
  ⟨rfl, by decide, .cons (.inr ⟨_, _, rfl, rfl⟩) (.cons (.inl rfl) (.cons (.inr ⟨_, _, rfl, rfl⟩) .nil))⟩

/-- States on the command, below it and above it. -/
theorem witness_EnabledTickApproachesTheCommand :
    ((board 2 true 500 2000 2 2 0 782 1218 1000).Inv ∧ (board 2 true 500 2000 2 2 0 782 1218 1000).filteredDuty = 500) ∧
    (running.Inv ∧ running.enabled = true ∧ running.filteredDuty < running.duty) ∧
    ((board 2 true 500 2004 2 2 0 782 1218 1000).Inv ∧
      500 < (board 2 true 500 2004 2 2 0 782 1218 1000).filteredDuty) :=
  ⟨⟨⟨by decide, by decide, by decide, by decide, by decide, by decide, by decide⟩, by decide⟩,
    ⟨running_inv, rfl, by decide⟩,
    ⟨⟨by decide, by decide, by decide, by decide, by decide, by decide, by decide⟩, by decide⟩⟩

theorem witness_FilteredDutySettlesOnTheCommand :
    running.Inv ∧ running.enabled = true ∧
      2000 * 2 ^ running.cfg.filterShift ≤ (List.replicate 8000 (4 : HallCode)).length :=
  ⟨running_inv, rfl, by rw [List.length_replicate]; decide⟩

/-- One revolution, sectors 1, 2, 3, 4, 5, 6, 1 being the codes 4, 5, 1, 3, 2, 6, 4, with a command and a Disabled
interval, in which the rotor reads sector 1, on the way. -/
abbrev revolution : List Instr :=
  [.tick 5, .setduty 300, .tick 1, .seten false, .tick 4, .tick 4, .seten true, .tick 3, .tick 2, .tick 6]

theorem witness_PeriodCountsTicksBetweenEntries :
    running.cfg.wf ∧ running.enabled = true ∧ running.lastSector ≠ 1 ∧ halldec 4 = 1 ∧
    sampledHalls true revolution = [5, 1, 3, 2, 6] ∧
    List.IsChain (fun a b => ¬ (halldec a ≠ 1 ∧ halldec b = 1)) (4 :: sampledHalls true revolution) ∧
    halldec ((4 :: sampledHalls true revolution).getLastD 0) ≠ 1 ∧ modeAfterAll true revolution = true := by decide

theorem witness_SetenWritesTheFlagAndTheStage : running.cfg.wf := by decide

theorem witness_SetenIsIdempotent : running.Inv ∧ running.enabled = true := ⟨running_inv, rfl⟩

theorem witness_SplitSetenEqualsAnAtomicOrder : running.cfg.wf := by decide

theorem witness_SetdutyStoresTheClampedCommand : halted.cfg.wf := by decide

theorem witness_OnlyTheLastCommandMatters : running.Inv ∧ running.enabled = true := ⟨running_inv, rfl⟩

theorem witness_GetspeedReturnsTheCapturedPeriod : running.cfg.wf := by decide

theorem witness_DisablingZeroesTheNextTick : running.cfg.wf ∧ ∃ u, runAll [.setduty 7, .getspeed] running = .next u :=
  ⟨by decide, _, rfl⟩

theorem witness_FilterIsFrozenWhileDisabled : halted.Inv ∧ halted.enabled = false ∧
    ∀ i ∈ [Instr.setduty 300, .tick 1, .seten false], i ≠ .seten true := ⟨halted_inv, rfl, by decide⟩

theorem witness_TelemetryIsIndependentOfTheCommand :
    List.Forall₂ (fun i j => i = j ∨ ∃ v w, i = Instr.setduty v ∧ j = .setduty w)
      [.setduty 7, .getspeed] [.setduty (-9), .getspeed] ∧
    (∃ t, runAll [.setduty 7, .getspeed] running = .next t) ∧
    (∃ t, runAll [.setduty (-9), .getspeed] { running with acc := 0 } = .next t) :=
  ⟨.cons (.inr ⟨_, _, rfl, rfl⟩) (.cons (.inl rfl) .nil), ⟨_, rfl⟩, ⟨_, rfl⟩⟩

theorem witness_HallRowsGiveTheirSector : running.cfg.wf := by decide

theorem witness_SectorRowsGiveTheirPattern : running.cfg.wf := by decide

theorem witness_ChannelRowsGiveTheirCompareOutput : running.cfg.wf := by decide

theorem witness_CodeRowsExplainATick : running.Inv ∧ running.enabled = true ∧
    ∃ t, exec (.tick 5) running = .next t := ⟨running_inv, rfl, _, exec_of_wf (by decide) _⟩

end Sys2Proof.Machine.Tests
end

section
/-! PROOFS. The scope (00_scope.md): the shift is the floor of a quotient (R12), and the constants never change (R7). -/

namespace Sys2Proof.Machine

/-- Settles O21: `q` is the floor when it is at most the shift and the shift is below `q + 1`, and each half is a
comparison of `a` with a multiple of `2^n`. -/
theorem shiftRoundsTowardMinusInfinity : Obligations.ShiftRoundsTowardMinusInfinity := by
  intro a q n
  rw [← le_asr_iff, ← asr_lt_iff]
  omega

/-- A run of `k + 1` steps that answers is one step that answers and a run of `k` from there. -/
theorem run_succ_eq_next_iff {k : Nat} {s t : State} :
    Host.Core.run Sys2Proof.core (k + 1) s = .next t ↔
      ∃ u, step s = .next u ∧ Host.Core.run Sys2Proof.core k u = .next t := by
  have hcore : Sys2Proof.core.step s = step s := rfl
  cases hstep : step s <;> simp [Host.Core.run, hcore, hstep]

/-- What every step keeps, every run keeps. -/
theorem run_keeps {P : State → Prop} (hstep : ∀ s t : State, P s → step s = .next t → P t) {k : Nat} {s t : State}
    (hs : P s) (hrun : Host.Core.run Sys2Proof.core k s = .next t) : P t := by
  induction k generalizing s with
  | zero =>
    cases hrun
    exact hs
  | succ k ih =>
    obtain ⟨u, hu, hrest⟩ := run_succ_eq_next_iff.mp hrun
    exact ih (hstep s u hs hu) hrest

/-- No step changes the constants: neither taking a word nor the effect of an operation does. -/
theorem step_cfg {s t : State} (h : step s = .next t) : t.cfg = s.cfg := by
  obtain ⟨i, -, -, rfl⟩ := step_eq_next_iff.mp h
  rw [effect_cfg, takeWord_cfg]

/-- The input ports leave the constants: a reset is a reset under the same configuration (70_reset_and_hazards.md R141),
and any other cycle changes the queue only. -/
@[simp] theorem clock_cfg (p : PortInputs) (s : State) : (s.clock p).cfg = s.cfg := by
  unfold State.clock
  split <;> rfl

/-- Settles O13: "the constants are those of `s`" is kept by every step, so by every run, and by the input ports. -/
theorem constantsNeverChange : Obligations.ConstantsNeverChange := by
  constructor
  · intro k s t hrun
    exact run_keeps (P := fun u => u.cfg = s.cfg) (fun _ _ hu h => (step_cfg h).trans hu) rfl hrun
  · exact clock_cfg

end Sys2Proof.Machine
end

section
/-! PROOFS. The state (10_state.md): the invariants of R25, the one writer of each register (R26), the ports (R31), the
last command before a `TICK` (R32) and the reset (R34). -/

namespace Sys2Proof.Machine

/-! What an operation changes. -/

/-- Only `TICK`, `SETEN` and `SETDUTY` change more than the reply. -/
theorem effect_cases (i : Instr) (s : State) :
    (∃ hall, i = .tick hall) ∨ (∃ b, i = .seten b) ∨ (∃ v, i = .setduty v) ∨ ∃ r, effect i s = s.setReply r := by
  cases i with
  | tick hall => exact .inl ⟨hall, rfl⟩
  | seten b => exact .inr (.inl ⟨b, rfl⟩)
  | setduty v => exact .inr (.inr (.inl ⟨v, rfl⟩))
  | _ => exact .inr (.inr (.inr ⟨_, rfl⟩))

/-- What is not `TICK` leaves the filter, the sector history, the speed registers and the compare registers (R26). -/
theorem effect_of_ne_tick {i : Instr} (s : State) (hi : ∀ hall, i ≠ .tick hall) :
    (effect i s).acc = s.acc ∧ (effect i s).lastSector = s.lastSector ∧
      (effect i s).speedTickCount = s.speedTickCount ∧ (effect i s).speedPeriodTicks = s.speedPeriodTicks ∧
      (effect i s).cmpY = s.cmpY ∧ (effect i s).cmpB = s.cmpB ∧ (effect i s).cmpG = s.cmpG ∧
      (effect i s).cmpWritten = s.cmpWritten := by
  obtain ⟨hall, rfl⟩ | ⟨b, rfl⟩ | ⟨v, rfl⟩ | ⟨r, hr⟩ := effect_cases i s
  · exact absurd rfl (hi hall)
  · simp [effect]
  · simp [effect]
  · simp [hr]

theorem effect_tick_enabled {s : State} (he : s.enabled = true) (hall : HallCode) :
    effect (.tick hall) s = (tickEnabled hall s).setReply .nothing := by
  simp [effect, he]

theorem effect_tick_disabled {s : State} (he : s.enabled = false) (hall : HallCode) :
    effect (.tick hall) s = (tickDisabled s).setReply .nothing := by
  simp [effect, he]

@[simp] theorem effect_tick_pwmOutEn (hall : HallCode) (s : State) :
    (effect (.tick hall) s).pwmOutEn = s.pwmOutEn := by
  cases he : s.enabled
  · simp [effect_tick_disabled he]
  · simp [effect_tick_enabled he]

@[simp] theorem effect_tick_dutyCommand (hall : HallCode) (s : State) :
    (effect (.tick hall) s).dutyCommand = s.dutyCommand := by
  cases he : s.enabled
  · simp [effect_tick_disabled he]
  · simp [effect_tick_enabled he]

/-- What is not `SETEN` leaves the flag and the output stage (R26). -/
theorem effect_of_ne_seten {i : Instr} (s : State) (hi : ∀ b, i ≠ .seten b) :
    (effect i s).enabled = s.enabled ∧ (effect i s).pwmOutEn = s.pwmOutEn := by
  obtain ⟨hall, rfl⟩ | ⟨b, rfl⟩ | ⟨v, rfl⟩ | ⟨r, hr⟩ := effect_cases i s
  · simp [modeAfter]
  · exact absurd rfl (hi b)
  · simp [effect]
  · rw [hr]
    simp

/-- What is not `SETDUTY` leaves the command (R26). -/
theorem effect_of_ne_setduty {i : Instr} (s : State) (hi : ∀ v, i ≠ .setduty v) :
    (effect i s).dutyCommand = s.dutyCommand := by
  obtain ⟨hall, rfl⟩ | ⟨b, rfl⟩ | ⟨v, rfl⟩ | ⟨r, hr⟩ := effect_cases i s
  · simp
  · simp [effect]
  · exact absurd rfl (hi v)
  · simp [hr]

/-! Runs under a well-formed configuration. -/

/-- The state that operations leave one after another, apart from the question whether they run. -/
def effectAll (is : List Instr) (s : State) : State := is.foldl (fun t i => effect i t) s

@[simp] theorem effectAll_cons (i : Instr) (is : List Instr) (s : State) :
    effectAll (i :: is) s = effectAll is (effect i s) := rfl

@[simp] theorem effectAll_append (is js : List Instr) (s : State) :
    effectAll (is ++ js) s = effectAll js (effectAll is s) := List.foldl_append

/-- What the same operation keeps between two states, the same operations keep. -/
theorem effectAll_keeps_relation {R : State → State → Prop}
    (hR : ∀ (i : Instr) (s t : State), R s t → R (effect i s) (effect i t)) (is : List Instr) {s t : State}
    (h : R s t) : R (effectAll is s) (effectAll is t) := by
  induction is generalizing s t with
  | nil => exact h
  | cons i is ih => exact ih (hR i s t h)

/-- Under a well-formed configuration a run answers, with the effects of its operations. -/
theorem runAll_eq_effectAll {s : State} (hc : s.cfg.wf) (is : List Instr) : runAll is s = .next (effectAll is s) := by
  induction is generalizing s with
  | nil => rfl
  | cons i is ih =>
    rw [runAll_cons, if_pos hc, ih (by rwa [effect_cfg]), effectAll_cons]

/-! The filter keeps its range. -/

/-- The filtered duty is a duty when the accumulator is in its range (R25 I2, I3). -/
theorem dutyInRange_asr {n : Nat} {a : Int} (h : accInRange n a) : dutyInRange (asr a n) := by
  obtain ⟨hlo, hhi⟩ := h
  have hlt : asr a n < 1001 := (asr_lt_iff a 1001 n).mpr (by omega)
  exact ⟨(le_asr_iff a (-1000) n).mpr hlo, by omega⟩

/-- One filter step keeps the range of the accumulator (41_iir_duty_filter.md R74). With `M = 2^n` and `q = asr a n`,
the new accumulator is at most `(M - 1) * q + (M - 1) + d` and at least `(M - 1) * q + d`, and `q` is a duty. -/
theorem accInRange_filt {n : Nat} {a d : Int} (ha : accInRange n a) (hd : dutyInRange d) :
    accInRange n (filt n a d).1 := by
  obtain ⟨hqlo, hqhi⟩ := dutyInRange_asr ha
  obtain ⟨hlo, hhi⟩ := asr_spec a n
  obtain ⟨hdlo, hdhi⟩ := hd
  have hM : (1 : Int) ≤ ((2 ^ n : Nat) : Int) := by exact_mod_cast Nat.one_le_two_pow
  have hup : 0 ≤ (((2 ^ n : Nat) : Int) - 1) * (1000 - asr a n) := mul_nonneg (by omega) (by omega)
  have hdown : 0 ≤ (((2 ^ n : Nat) : Int) - 1) * (1000 + asr a n) := mul_nonneg (by omega) (by omega)
  simp only [filt, filtAcc]
  constructor <;> linarith

/-- An accumulator in its range fits its 32-bit register, for every legal shift (R74). -/
theorem toInt_ofInt_of_accInRange {n : Nat} {a : Int} (hn : n ≤ 21) (ha : accInRange n a) :
    (BitVec.ofInt 32 a).toInt = a := by
  obtain ⟨hlo, hhi⟩ := ha
  have hM : ((2 ^ n : Nat) : Int) ≤ 2097152 := by exact_mod_cast Nat.pow_le_pow_right (by decide : 0 < 2) hn
  exact toInt_ofInt_32 (by omega) (by omega)

/-- The command that `SETDUTY` stores is a duty (R25 I1). -/
theorem dutyInRange_clampDuty (v : Int) : dutyInRange (clampDuty v).toInt := by
  rw [clampDuty_toInt]
  exact sat_mem (by decide)

/-- `SETDUTY` stores a duty as it is given (45_controller_ops.md R113). -/
theorem clampDuty_toInt_of_dutyInRange {v : Int} (hv : dutyInRange v) : (clampDuty v).toInt = v := by
  rw [clampDuty_toInt]
  exact sat_of_mem hv.1 hv.2

/-! The invariants. -/

/-- Under the invariants the accumulator after an Enabled `TICK` is the filter's, not only modulo 2^32 (R106). -/
theorem tickEnabled_acc_toInt {s : State} (hs : s.Inv) (hall : HallCode) :
    (tickEnabled hall s).acc.toInt = (filt s.cfg.filterShift s.acc.toInt s.duty).1 := by
  rw [tickEnabled_acc]
  exact toInt_ofInt_of_accInRange hs.config.1 (accInRange_filt hs.acc hs.duty)

/-- The queue, the draws and the reply are in none of the invariants. -/
theorem inv_of_own_fields {s : State} (hs : s.Inv) (r : Reply) (ws : List CodeWord) (k : Nat) :
    State.Inv { s with reply := r, inbox := ws, drawn := k } where
  config := hs.config
  duty := hs.duty
  acc := hs.acc
  filtered := hs.filtered
  lastSector := hs.lastSector
  stage := hs.stage
  legs := hs.legs

theorem takeWord_keeps_inv {s : State} (hs : s.Inv) : (takeWord s).2.Inv := by
  cases hw : s.inbox with
  | nil =>
    rw [takeWord_nil hw]
    exact inv_of_own_fields hs _ _ _
  | cons w rest =>
    rw [takeWord_cons hw]
    exact inv_of_own_fields hs _ _ _

/-- `SETEN` moves the flag and the output stage together (R25 I5). -/
theorem seten_keeps_inv {s : State} (hs : s.Inv) (b : Bool) : (effect (.seten b) s).Inv where
  config := hs.config
  duty := hs.duty
  acc := hs.acc
  filtered := hs.filtered
  lastSector := hs.lastSector
  stage := rfl
  legs := hs.legs

/-- `SETDUTY` stores a duty (R25 I1). -/
theorem setduty_keeps_inv {s : State} (hs : s.Inv) (v : Int) : (effect (.setduty v) s).Inv where
  config := hs.config
  duty := dutyInRange_clampDuty v
  acc := hs.acc
  filtered := hs.filtered
  lastSector := hs.lastSector
  stage := hs.stage
  legs := hs.legs

/-- A Disabled `TICK` writes clamped compare values and no other register (R25 I6). -/
theorem tickDisabled_keeps_inv {s : State} (hs : s.Inv) : (tickDisabled s).Inv where
  config := by simpa using hs.config
  duty := by simpa [State.duty] using hs.duty
  acc := by simpa using hs.acc
  filtered := by simpa [State.filteredDuty] using hs.filtered
  lastSector := by simpa using hs.lastSector
  stage := by simpa using hs.stage
  legs _ := by
    simp only [tickDisabled_cfg, tickDisabled_cmpY, tickDisabled_cmpB, tickDisabled_cmpG]
    exact ⟨compareWord_mem hs.config _, compareWord_mem hs.config _, compareWord_mem hs.config _⟩

/-- An Enabled `TICK` steps the filter within its range, stores a sector that `HALLDEC` gave and writes clamped compare
values (R25 I2, I3, I4, I6). -/
theorem tickEnabled_keeps_inv {s : State} (hs : s.Inv) (hall : HallCode) : (tickEnabled hall s).Inv := by
  have hacc : accInRange s.cfg.filterShift (tickEnabled hall s).acc.toInt := by
    rw [tickEnabled_acc_toInt hs]
    exact accInRange_filt hs.acc hs.duty
  exact {
    config := by simpa using hs.config
    duty := by simpa [State.duty] using hs.duty
    acc := by simpa only [tickEnabled_cfg] using hacc
    filtered := by simpa only [State.filteredDuty, tickEnabled_cfg] using dutyInRange_asr hacc
    lastSector := by simpa using halldec_le_six hall
    stage := by simpa using hs.stage
    legs := fun _ => by
      simp only [tickEnabled_cfg, tickEnabled_cmpY, tickEnabled_cmpB, tickEnabled_cmpG]
      exact ⟨compareWord_mem hs.config _, compareWord_mem hs.config _, compareWord_mem hs.config _⟩ }

/-- Every operation keeps the invariants. -/
theorem effect_keeps_inv {s : State} (hs : s.Inv) (i : Instr) : (effect i s).Inv := by
  obtain ⟨hall, rfl⟩ | ⟨b, rfl⟩ | ⟨v, rfl⟩ | ⟨r, hr⟩ := effect_cases i s
  · cases he : s.enabled
    · rw [effect_tick_disabled he]
      exact inv_of_own_fields (tickDisabled_keeps_inv hs) _ _ _
    · rw [effect_tick_enabled he]
      exact inv_of_own_fields (tickEnabled_keeps_inv hs hall) _ _ _
  · exact seten_keeps_inv hs b
  · exact setduty_keeps_inv hs v
  · rw [hr]
    exact inv_of_own_fields hs _ _ _

/-- Settles O10: a step takes a word, which no invariant speaks of, and runs one operation, which keeps them. -/
theorem stepKeepsTheInvariants : Obligations.StepKeepsTheInvariants := by
  intro s t hs hstep
  obtain ⟨i, -, -, rfl⟩ := step_eq_next_iff.mp hstep
  exact effect_keeps_inv (takeWord_keeps_inv hs) i

/-- After reset every register is 0, and "unwritten" frees the compare registers from the guard band (R35). -/
theorem resetWith_inv {c : Config} (hc : c.wf) (n : Nat) : (State.resetWith c n).Inv := by
  have hacc : accInRange c.filterShift (0 : AccWord).toInt := by
    have hM : (1 : Int) ≤ ((2 ^ c.filterShift : Nat) : Int) := by exact_mod_cast Nat.one_le_two_pow
    rw [show (0 : AccWord).toInt = 0 from rfl]
    constructor <;> omega
  exact {
    config := hc
    duty := (by decide : dutyInRange (0 : DutyWord).toInt)
    acc := hacc
    filtered := dutyInRange_asr hacc
    lastSector := (by decide : (0 : SectorCode).toNat ≤ 6)
    stage := rfl
    legs := fun h => nomatch h }

/-- Settles O11: the state the model starts from is a reset under the standard constants, which are well formed. -/
theorem resetMeetsTheInvariants : Obligations.ResetMeetsTheInvariants :=
  ⟨fun _ n hc => resetWith_inv hc n, resetWith_inv (by decide) 0⟩

/-- Settles O12: the invariants hold at reset, whatever is queued, and every step keeps them, so every run does. -/
theorem runsFromResetMeetTheInvariants : Obligations.RunsFromResetMeetTheInvariants := by
  intro c n k words t hc hrun
  exact run_keeps stepKeepsTheInvariants (inv_of_own_fields (resetWith_inv hc n) _ words _) hrun

/-- Settles O14: the frame of each operation, and for the second part the run itself: `SETEN` and `SETDUTY` write any
flag beside any command. -/
theorem everyRegisterHasOneWriter : Obligations.EveryRegisterHasOneWriter := by
  constructor
  · intro i s t h
    obtain ⟨-, rfl⟩ := exec_eq_next_iff.mp h
    exact ⟨effect_of_ne_tick s, effect_of_ne_seten s, effect_of_ne_setduty s⟩
  · intro s b v hs hv
    exact ⟨effectAll [.seten b, .setduty v] s, runAll_eq_effectAll hs.config _, rfl,
      clampDuty_toInt_of_dutyInRange hv, setduty_keeps_inv (seten_keeps_inv hs b) v⟩

/-! The last command. -/

/-- Commands that another command follows leave no trace in a run, whether it answers or is refused (R32). -/
theorem runAll_setduty_setduty (vs : List Int) (v : Int) (is : List Instr) (s : State) :
    runAll (vs.map .setduty ++ .setduty v :: is) s = runAll (.setduty v :: is) s := by
  induction vs generalizing s with
  | nil => rfl
  | cons u us ih =>
    have hover : effect (.setduty v) (effect (.setduty u) s) = effect (.setduty v) s := rfl
    rw [List.map_cons, List.cons_append, runAll_cons, ih, runAll_cons, runAll_cons, hover, effect_cfg]
    split <;> rfl

/-- Settles O40: the earlier commands drop out, and what is left is `SETDUTY` and one Enabled `TICK`, whose filter step
reads the clamped command. -/
theorem onlyTheLastCommandMatters : Obligations.OnlyTheLastCommandMatters := by
  constructor
  · exact fun s vs v h => runAll_setduty_setduty vs v [.tick h] s
  · intro s vs v h hs he m d
    have hu := setduty_keeps_inv hs v
    have hd : (effect (.setduty v) s).duty = d := clampDuty_toInt v
    have hacc : (tickEnabled h (effect (.setduty v) s)).acc.toInt = s.acc.toInt - s.acc.toInt / m + d := by
      rw [tickEnabled_acc_toInt hu, hd]
      rfl
    refine ⟨(tickEnabled h (effect (.setduty v) s)).setReply .nothing, ?_, hd, hacc, ?_⟩
    · rw [runAll_setduty_setduty, runAll_eq_effectAll hs.config, effectAll_cons, effectAll_cons,
        effect_tick_enabled (s := effect (.setduty v) s) he]
      rfl
    · exact congrArg (· / m) hacc

/-! What a `TICK` forgets. -/

/-- The state with the compare registers, and what may have been read from them or drawn for them, blanked out. -/
def State.blankLegs (s : State) : State := { s with cmpY := 0, cmpB := 0, cmpG := 0, reply := .nothing, drawn := 0 }

/-- The state with the number of the next draw blanked out. -/
def State.blankDrawn (s : State) : State := { s with drawn := 0 }

/-- A `TICK` writes the compare registers and the reply afresh, from the registers that `blankLegs` keeps (R106,
R107). -/
theorem effect_tick_blankLegs (hall : HallCode) (s : State) :
    effect (.tick hall) s.blankLegs = (effect (.tick hall) s).blankDrawn := by
  cases he : s.enabled
  · rw [effect_tick_disabled he, effect_tick_disabled (s := s.blankLegs) he]
    rfl
  · rw [effect_tick_enabled he, effect_tick_enabled (s := s.blankLegs) he]
    rfl

/-- No operation carries a compare register into another register. -/
theorem effect_blankLegs (i : Instr) (s : State) : (effect i s.blankLegs).blankLegs = (effect i s).blankLegs := by
  cases i with
  | tick hall =>
    rw [effect_tick_blankLegs]
    rfl
  | _ => rfl

/-- No operation reads the number of the next draw. -/
theorem effect_blankDrawn (i : Instr) (s : State) : effect i s.blankDrawn = (effect i s).blankDrawn := by
  cases i with
  | tick hall =>
    cases he : s.enabled
    · rw [effect_tick_disabled he, effect_tick_disabled (s := s.blankDrawn) he]
      rfl
    · rw [effect_tick_enabled he, effect_tick_enabled (s := s.blankDrawn) he]
      rfl
  | _ => rfl

theorem effectAll_blankLegs (is : List Instr) {s t : State} (h : s.blankLegs = t.blankLegs) :
    (effectAll is s).blankLegs = (effectAll is t).blankLegs :=
  effectAll_keeps_relation (R := fun s t => s.blankLegs = t.blankLegs)
    (fun i s t hst => by rw [← effect_blankLegs, hst, effect_blankLegs]) is h

theorem effectAll_blankDrawn (is : List Instr) {s t : State} (h : s.blankDrawn = t.blankDrawn) :
    (effectAll is s).blankDrawn = (effectAll is t).blankDrawn :=
  effectAll_keeps_relation (R := fun s t => s.blankDrawn = t.blankDrawn)
    (fun i s t hst => by rw [← effect_blankDrawn, hst, effect_blankDrawn]) is h

/-- Settles O50: two resets agree but for what `blankLegs` blanks out, so the operations before the `TICK` leave states
that agree in the same way; the `TICK` leaves states that agree but for the number of the next draw, and so do the
operations after it. -/
theorem outputsForgetTheResetDraws : Obligations.OutputsForgetTheResetDraws := by
  intro c n m is js h hc
  have hreset : (State.resetWith c n).blankLegs = (State.resetWith c m).blankLegs := rfl
  have hbefore := effectAll_blankLegs is hreset
  have htick : (effect (.tick h) (effectAll is (State.resetWith c n))).blankDrawn =
      (effect (.tick h) (effectAll is (State.resetWith c m))).blankDrawn := by
    rw [← effect_tick_blankLegs, hbefore, effect_tick_blankLegs]
  have hend := effectAll_blankDrawn js htick
  rw [← effectAll_cons, ← effectAll_cons, ← effectAll_append, ← effectAll_append] at hend
  exact ⟨_, _, runAll_eq_effectAll (s := State.resetWith c n) hc _, runAll_eq_effectAll (s := State.resetWith c m) hc _,
    (congrArg State.outputs hend :), (congrArg State.reply hend :)⟩

/-! The reset and the ports. -/

theorem clock_of_rst {p : PortInputs} (hp : p.rst = true) (s : State) :
    s.clock p = State.resetWith s.cfg s.drawn :=
  if_pos hp

/-- Settles O16: both ways to `t` end in a reset state, and its registers are written out in `resetWith`. -/
theorem resetLeavesZeroAndDisabled : Obligations.ResetLeavesZeroAndDisabled := by
  intro c n p s t ht
  obtain ⟨c', n', rfl⟩ : ∃ c' n', t = State.resetWith c' n' := by
    obtain rfl | ⟨hp, rfl⟩ := ht
    · exact ⟨c, n, rfl⟩
    · exact ⟨s.cfg, s.drawn, clock_of_rst hp s⟩
  exact ⟨rfl, rfl, rfl, rfl, rfl, rfl, rfl, rfl⟩

theorem clock_of_not_rst {p : PortInputs} (hp : p.rst = false) (s : State) :
    s.clock p = { s with inbox := s.inbox ++ portWords p } := by
  simp [State.clock, hp]

/-- The Hall bits weigh 1, 2 and 4 (40_hall_commutator.md R60). -/
theorem packHall_toNat : ∀ a b c : Bool, (packHall a b c).toNat = a.toNat + 2 * b.toNat + 4 * c.toNat := by
  decide

theorem tickWords_of_stb {p : PortInputs} (h : p.tickStb = true) :
    tickWords p = [encode (.tick (packHall p.hallA p.hallB p.hallC))] :=
  if_pos h

theorem tickWords_of_not_stb {p : PortInputs} (h : p.tickStb = false) : tickWords p = [] := by
  simp [tickWords, h]

theorem commandWords_of_stb {p : PortInputs} (h : p.cmdStb = true) (hop : p.cmdOp ≠ 0) :
    commandWords p = [.event (eventWord p.cmdOp p.cmdArg)] := by
  simpa [commandWords, h] using hop

/-- No command strobe, or one with `cmd_op` = 0, issues nothing (30_encoding.md R56). -/
theorem commandWords_of_none {p : PortInputs} (h : p.cmdStb = false ∨ p.cmdOp = 0) : commandWords p = [] := by
  obtain h | h := h <;> simp [commandWords, h]

/-- A Hall code is the operand of the event word it is put into (R51). -/
theorem hallOperand_setWidth : ∀ h : HallCode, hallOperand (h.setWidth 16) = h := by decide

/-- Settles O17: the words of each strobe, and what each event word decodes to. -/
theorem portsIssueTheTickFirst : Obligations.PortsIssueTheTickFirst := by
  refine ⟨fun p s hp => ⟨packHall p.hallA p.hallB p.hallC, packHall_toNat _ _ _, ?_⟩, ?_, ?_⟩
  · rw [clock_of_not_rst hp, portWords]
    refine ⟨fun ht hc hop => ?_, fun ht hnone => ?_, fun ht hc hop => ?_, fun ht hnone => ?_⟩
    · rw [tickWords_of_stb ht, commandWords_of_stb hc hop, List.singleton_append]
    · rw [tickWords_of_stb ht, commandWords_of_none hnone, List.append_nil]
    · rw [tickWords_of_not_stb ht, commandWords_of_stb hc hop, List.nil_append]
    · rw [tickWords_of_not_stb ht, commandWords_of_none hnone, List.append_nil, List.append_nil]
  · intro h
    rw [encode, decode, decodeEvent_tick, hallOperand_setWidth]
  · intro arg
    exact ⟨congrArg Except.ok (decodeEvent_seten arg), congrArg Except.ok (decodeEvent_setduty arg),
      congrArg Except.ok (decodeEvent_getspeed arg)⟩

/-! The output ports. -/

@[simp] theorem outputs_setReply (s : State) (r : Reply) : (s.setReply r).outputs = s.outputs := rfl

/-- A row of a code space changes no output: it changes the reply alone. -/
theorem outputs_effect_of_not_event {i : Instr} (s : State) (hi : i.isEvent = false) :
    (effect i s).outputs = s.outputs := by
  obtain ⟨hall, rfl⟩ | ⟨b, rfl⟩ | ⟨v, rfl⟩ | ⟨r, hr⟩ := effect_cases i s
  · cases hi
  · cases hi
  · cases hi
  · rw [hr, outputs_setReply]

/-- The centre value as a compare register holds it (43_pwm_clamper.md R92). -/
theorem compareWord_zero_toNat {c : Config} (hc : c.wf) : (compareWord c 0).toNat = c.period / 2 := by
  have h := compareWord_toNat hc 0
  rw [clamp_zero hc] at h
  exact_mod_cast h

/-- `per'` of `SPEED` in the words of R97. -/
theorem speedPeriod_eq (prev sector : SectorCode) (cnt per : TickWord) :
    speedPeriod prev sector cnt per = if prev ≠ 1 ∧ sector = 1 then cnt else per := by
  simp [speedPeriod, speedEdge, referenceSector]

/-- Settles O49: the output fields of each operation's effect; the compare registers hold what the clamp answered. -/
theorem outputPortsFollowTheOperations : Obligations.OutputPortsFollowTheOperations := by
  intro s hc
  refine ⟨rfl, ⟨_, exec_of_wf hc _, rfl, rfl⟩, fun v => ⟨_, exec_of_wf hc _, rfl⟩, fun b => ⟨_, exec_of_wf hc _, rfl⟩,
    fun i hi => ⟨_, exec_of_wf hc i, outputs_effect_of_not_event s hi⟩, fun h he => ?_, fun h hs he => ?_⟩
  · refine ⟨_, exec_tick_disabled hc he h, ?_⟩
    simp [State.outputs, compareWord_zero_toNat hc]
  · refine ⟨_, exec_tick_enabled hc he h, ?_⟩
    simp [State.outputs, compareWord_toNat hc, speedPeriod_eq]

end Sys2Proof.Machine
end

section
/-! PROOFS. The order of events (20_memory.md R42): a step takes the oldest queued word, decodes it and executes it, so
queued words run in the order in which they were queued. -/

namespace Sys2Proof.Machine

/-! Words that come back from their encoding. -/

/-- The operand bit of `SETEN` is read back (30_encoding.md R51). -/
theorem enableOperand_ite : ∀ b : Bool, enableOperand (if b then 1 else 0) = b := by decide

/-- A signed 16-bit operand is read back (R51). -/
theorem dutyOperand_ofInt {v : Int} (hv : (Instr.setduty v).wf) : dutyOperand (BitVec.ofInt 16 v) = v := by
  obtain ⟨hlo, hhi⟩ : -32768 ≤ v ∧ v ≤ 32767 := by simpa [Instr.wf, Instr.wfBool] using hv
  exact toInt_ofInt_16 hlo hhi

/-- The encoding of a well-formed operation decodes to the operation (R49, R51): the code rows compute, and of an event
the operand is read back. -/
theorem decode_encode {i : Instr} (hi : i.wf) : decode (encode i) = .ok i := by
  cases i with
  | tick h => rw [encode, decode, decodeEvent_tick, hallOperand_setWidth]
  | seten b => rw [encode, decode, decodeEvent_seten, enableOperand_ite]
  | setduty v => rw [encode, decode, decodeEvent_setduty, dutyOperand_ofInt hi]
  | _ => rfl

/-! One step on a queued word. -/

theorem step_of_decode_ok {s : State} {w : CodeWord} {rest : List CodeWord} {i : Instr} (hw : s.inbox = w :: rest)
    (hd : decode w = .ok i) : step s = exec i { s with inbox := rest } := by
  simp only [step, takeWord_cons hw, hd]

theorem step_of_decode_error {s : State} {w : CodeWord} {rest : List CodeWord} {e : DecodeError}
    (hw : s.inbox = w :: rest) (hd : decode w = .error e) : step s = .refused (refusalOf e) := by
  simp only [step, takeWord_cons hw, hd]

/-- With an empty queue the step executes the event that the agents issue: every event word decodes (R56). -/
theorem step_of_inbox_nil {s : State} (hw : s.inbox = []) :
    step s = exec (decodeEvent (Config.agentEvent s.drawn)) { s with drawn := s.drawn + 1 } := by
  simp only [step, takeWord_nil hw, decode]

theorem decodeTableWord_eq_some_iff {nbits w : Nat} {i : Instr} :
    decodeTableWord nbits w = some i ↔ decode (tableCodeWord nbits w) = .ok i := by
  unfold decodeTableWord
  split <;> simp [*]

/-- A number that the host places is executed first, and the queue is then as it was. -/
theorem step_withFetchWord {nbits w : Nat} {i : Instr} (h : decodeTableWord nbits w = some i) (s : State) :
    step (s.withFetchWord nbits w) = exec i s :=
  step_of_decode_ok (s := s.withFetchWord nbits w) rfl (decodeTableWord_eq_some_iff.mp h)

/-- Settles O6: what a step does with a word that decodes, with one that does not, with no word, and with a number. -/
theorem stepRunsTheDecodedOperation : Obligations.StepRunsTheDecodedOperation :=
  ⟨fun _ _ _ _ => step_of_decode_ok, fun _ _ _ _ => step_of_decode_error, fun _ => step_of_inbox_nil,
    fun s _ _ _ h => step_withFetchWord h s⟩

/-! Runs over queued words. -/

/-- A run whose first step executes `i` goes on from the effect of `i`, as `runAll` does. -/
theorem run_succ_of_step_eq_exec {k : Nat} {s u : State} {i : Instr} (h : step s = exec i u) :
    Host.Core.run Sys2Proof.core (k + 1) s =
      if u.cfg.wf then Host.Core.run Sys2Proof.core k (effect i u) else .refused .illFormedConfiguration := by
  have hcore : Sys2Proof.core.step s = exec i u := h
  by_cases hc : u.cfg.wf
  · simp only [Host.Core.run, hcore, exec_eq, if_pos hc]
  · simp only [Host.Core.run, hcore, exec_eq, if_neg hc]

/-- No operation reads the queue. -/
theorem effect_with_inbox (i : Instr) (s : State) (ws : List CodeWord) :
    effect i { s with inbox := ws } = { effect i s with inbox := ws } := by
  cases i with
  | tick hall =>
    obtain he | he := Bool.eq_false_or_eq_true s.enabled
    · rw [effect_tick_enabled he, effect_tick_enabled (s := { s with inbox := ws }) he]
      rfl
    · rw [effect_tick_disabled he, effect_tick_disabled (s := { s with inbox := ws }) he]
      rfl
  | _ => rfl

/-- Settles O7, by induction on the operations: the first step takes the first word, which decodes to the first
operation, and the effect of that operation leaves the other words queued. -/
theorem queuedWordsRunInOrder : Obligations.QueuedWordsRunInOrder := by
  intro is rest s hwf
  induction is generalizing s with
  | nil => rfl
  | cons i is ih =>
    obtain ⟨hi, his⟩ := List.forall_mem_cons.mp hwf
    have hstep : step { s with inbox := (i :: is).map encode ++ rest } =
        exec i { s with inbox := is.map encode ++ rest } :=
      step_of_decode_ok rfl (decode_encode hi)
    rw [List.length_cons, run_succ_of_step_eq_exec hstep, runAll_cons, effect_with_inbox,
      effect_with_inbox i s rest, ih (effect i s) his]
    rfl

end Sys2Proof.Machine
end

section
/-! PROOFS. The encodings (30_encoding.md): the decoder undoes the encoder, what each code space decodes to (R49 to R56),
the opcode table's row of a word, and the scripts (R58, R59). -/

namespace Sys2Proof.Machine

/-- Settles O1: the operand of each event is read back from its bits of `arg`, and the code rows compute. -/
theorem decodeOfEncodeIsTheOperation : Obligations.DecodeOfEncodeIsTheOperation :=
  fun _ => decode_encode

/-! What an event word decodes to, by its field `op` (R50). -/

theorem decodeEvent_of_op_zero {w : EventWord} (h : w.toNat / 65536 = 0) :
    decodeEvent w = .tick (hallOperand (argField w)) := by
  simp only [decodeEvent, opField_toNat, h]

theorem decodeEvent_of_op_one {w : EventWord} (h : w.toNat / 65536 = 1) :
    decodeEvent w = .seten (enableOperand (argField w)) := by
  simp only [decodeEvent, opField_toNat, h]

theorem decodeEvent_of_op_two {w : EventWord} (h : w.toNat / 65536 = 2) :
    decodeEvent w = .setduty (dutyOperand (argField w)) := by
  simp only [decodeEvent, opField_toNat, h]

theorem decodeEvent_of_op_three {w : EventWord} (h : w.toNat / 65536 = 3) : decodeEvent w = .getspeed := by
  simp only [decodeEvent, opField_toNat, h]

/-- All four values of `op` are assigned (R50). -/
theorem event_op_cases (w : EventWord) :
    w.toNat / 65536 = 0 ∨ w.toNat / 65536 = 1 ∨ w.toNat / 65536 = 2 ∨ w.toNat / 65536 = 3 := by
  have := w.isLt
  omega

/-- An event word decodes to an operation whose row has the word's `op`. -/
theorem tableRow_decodeEvent (w : EventWord) :
    ∃ mnemonic, tableRow (decodeEvent w) = eventRow mnemonic (w.toNat / 65536) := by
  obtain h | h | h | h := event_op_cases w
  · exact ⟨"TICK", by rw [decodeEvent_of_op_zero h, h, tableRow]⟩
  · exact ⟨"SETEN", by rw [decodeEvent_of_op_one h, h, tableRow]⟩
  · exact ⟨"SETDUTY", by rw [decodeEvent_of_op_two h, h, tableRow]⟩
  · exact ⟨"GETSPEED", by rw [decodeEvent_of_op_three h, h, tableRow]⟩

/-- Words that decode to one event have one `op`: it stands in the pattern of the event's row. -/
theorem op_eq_of_decodeEvent_eq {w w' : EventWord} (h : decodeEvent w = decodeEvent w') :
    w.toNat / 65536 = w'.toNat / 65536 := by
  obtain ⟨m, hm⟩ := tableRow_decodeEvent w
  obtain ⟨m', hm'⟩ := tableRow_decodeEvent w'
  have hrow : eventRow m (w.toNat / 65536) = eventRow m' (w'.toNat / 65536) := by rw [← hm, ← hm', h]
  have hpattern : w.toNat / 65536 * 0x10000 = w'.toNat / 65536 * 0x10000 := congrArg TableRow.pattern hrow
  omega

/-! The bits of an event word that an operand depends on (R51). -/

/-- Two words have the same low `n` bits when these bits agree one by one. -/
theorem extractLsb'_zero_eq_iff {v n : Nat} (x y : BitVec v) :
    x.extractLsb' 0 n = y.extractLsb' 0 n ↔ ∀ k, k < n → x.getLsbD k = y.getLsbD k := by
  constructor
  · intro h k hk
    have hbit := congrArg (fun b => b.getLsbD k) h
    simpa [hk] using hbit
  · intro h
    apply BitVec.eq_of_getLsbD_eq
    intro k hk
    simp [hk, h k hk]

theorem hallOperand_argField (w : EventWord) : hallOperand (argField w) = w.extractLsb' 0 3 := by
  apply BitVec.eq_of_getLsbD_eq
  intro k hk
  simp [hallOperand, argField, hk]

theorem enableOperand_argField (w : EventWord) : enableOperand (argField w) = w.getLsbD 0 := by
  simp [enableOperand, argField]

theorem dutyOperand_eq_iff {a b : EventArg} : dutyOperand a = dutyOperand b ↔ a = b := BitVec.toInt_inj

/-- Settles O2: words of different `op` denote different events, and words of the same `op` the same event exactly when
their operands agree, which for each operation is a statement about its bits of `arg`. -/
theorem eventWordsDifferOnlyInUsedBits : Obligations.EventWordsDifferOnlyInUsedBits := by
  intro w w'
  rw [decode, decode, Except.ok.injEq]
  by_cases hop : w.toNat / 65536 = w'.toNat / 65536
  · obtain h | h | h | h := event_op_cases w
    · rw [decodeEvent_of_op_zero h, decodeEvent_of_op_zero (hop ▸ h), Instr.tick.injEq, hallOperand_argField,
        hallOperand_argField, extractLsb'_zero_eq_iff]
      simp [← hop, h]
    · rw [decodeEvent_of_op_one h, decodeEvent_of_op_one (hop ▸ h), Instr.seten.injEq, enableOperand_argField,
        enableOperand_argField]
      simp [← hop, h]
    · rw [decodeEvent_of_op_two h, decodeEvent_of_op_two (hop ▸ h), Instr.setduty.injEq, dutyOperand_eq_iff, argField,
        argField, extractLsb'_zero_eq_iff]
      simp [← hop, h]
    · rw [decodeEvent_of_op_three h, decodeEvent_of_op_three (hop ▸ h)]
      simp [← hop, h]
  · exact iff_of_false (fun h => hop (op_eq_of_decodeEvent_eq h)) (fun h => hop h.1)

/-! Which words decode, and that they decode to well-formed operations. -/

/-- The operand that an event word carries to `SETDUTY` is a signed 16-bit integer (R51). -/
theorem setduty_dutyOperand_wf (arg : EventArg) : (Instr.setduty (dutyOperand arg)).wf := by
  have hlo : -32768 ≤ arg.toInt := BitVec.le_toInt arg
  have hhi : arg.toInt < 32768 := BitVec.toInt_lt
  have hle : arg.toInt ≤ 32767 := by omega
  simp [Instr.wf, Instr.wfBool, dutyOperand, hlo, hle]

theorem decodeEvent_wf (w : EventWord) : (decodeEvent w).wf := by
  obtain h | h | h | h := event_op_cases w
  · rw [decodeEvent_of_op_zero h, Instr.wf, Instr.wfBool]
  · rw [decodeEvent_of_op_one h, Instr.wf, Instr.wfBool]
  · rw [decodeEvent_of_op_two h]
    exact setduty_dutyOperand_wf _
  · rw [decodeEvent_of_op_three h, Instr.wf, Instr.wfBool]

theorem decodeHall_wf : ∀ c : HallCode, (decodeHall c).wf := by decide

theorem decodeSector_wf : ∀ c : SectorCode, (decodeSector c).wf := by decide

/-- The four channel codes (R54). -/
theorem channelCode_cases : ∀ c : ChannelCode, c = 0 ∨ c = 1 ∨ c = 2 ∨ c = 3 := by decide

/-- Settles O3, by the space of the word: three spaces decode whole, the channel space up to its code 3, and a number
of no space not at all. -/
theorem onlyChannelCodeThreeIsUnused : Obligations.OnlyChannelCodeThreeIsUnused := by
  intro c
  cases c with
  | event w => exact iff_of_true ⟨_, rfl, decodeEvent_wf w⟩ ⟨nofun, nofun⟩
  | hall c => exact iff_of_true ⟨_, rfl, decodeHall_wf c⟩ ⟨nofun, nofun⟩
  | sector c => exact iff_of_true ⟨_, rfl, decodeSector_wf c⟩ ⟨nofun, nofun⟩
  | channel c =>
    obtain rfl | rfl | rfl | rfl := channelCode_cases c
    · exact iff_of_true ⟨.channelY, rfl, rfl⟩ ⟨by decide, nofun⟩
    · exact iff_of_true ⟨.channelB, rfl, rfl⟩ ⟨by decide, nofun⟩
    · exact iff_of_true ⟨.channelG, rfl, rfl⟩ ⟨by decide, nofun⟩
    · exact iff_of_false (fun ⟨_, hi, _⟩ => nomatch hi) (fun h => h.1 rfl)
  | unframed nbits w => exact iff_of_false (fun ⟨_, hi, _⟩ => nomatch hi) (fun h => h.2 nbits w rfl)

/-! A word that decodes is a word of its operation's row. -/

/-- The bits of an event word under the mask of the event rows are its `op`. -/
theorem event_and_mask (w : EventWord) : w.toNat &&& 0x30000 = w.toNat / 65536 * 0x10000 := by
  have h := Laws.EncodesItsRow.eventWord_and_mask (opField w) (argField w)
  rwa [eventWord_fields, opField_toNat] at h

theorem decodeEvent_row_holds (w : EventWord) : (tableRow (decodeEvent w)).holds (.event w) := by
  obtain ⟨m, hm⟩ := tableRow_decodeEvent w
  rw [hm]
  exact ⟨w.toNat, rfl, event_and_mask w⟩

theorem decodeHall_row : ∀ c : HallCode, (tableRow (decodeHall c)).space = .hall ∧
    c.toNat &&& (tableRow (decodeHall c)).mask = (tableRow (decodeHall c)).pattern := by decide

theorem decodeSector_row : ∀ c : SectorCode, (tableRow (decodeSector c)).space = .sector ∧
    c.toNat &&& (tableRow (decodeSector c)).mask = (tableRow (decodeSector c)).pattern := by decide

theorem decodeChannel_row_holds {c : ChannelCode} {i : Instr} (h : decodeChannel c = .ok i) :
    (tableRow i).holds (.channel c) := by
  obtain rfl | rfl | rfl | rfl := channelCode_cases c
  · cases h
    exact Laws.EncodesItsRow.channelY
  · cases h
    exact Laws.EncodesItsRow.channelB
  · cases h
    exact Laws.EncodesItsRow.channelG
  · cases h

theorem row_holds_of_decode {c : CodeWord} {i : Instr} (h : decode c = .ok i) : (tableRow i).holds c := by
  cases c with
  | event w =>
    cases h
    exact decodeEvent_row_holds w
  | hall c =>
    cases h
    obtain ⟨hspace, hbits⟩ := decodeHall_row c
    exact ⟨c.toNat, by rw [hspace, CodeWord.number], hbits⟩
  | sector c =>
    cases h
    obtain ⟨hspace, hbits⟩ := decodeSector_row c
    exact ⟨c.toNat, by rw [hspace, CodeWord.number], hbits⟩
  | channel c => exact decodeChannel_row_holds h
  | unframed nbits w => cases h

/-! No two rows overlap. -/

/-- The bits that tell the rows of a space apart. -/
def rowMask : CodeSpace → Nat
  | .event => 0x30000
  | .hall => 7
  | .sector => 7
  | .channel => 3

theorem tableRow_mask (i : Instr) : (tableRow i).mask = rowMask (tableRow i).space := by
  cases i <;> rfl

/-- A number as a word of a space. -/
def wordIn : CodeSpace → Nat → CodeWord
  | .event, n => .event (BitVec.ofNat 18 n)
  | .hall, n => .hall (BitVec.ofNat 3 n)
  | .sector, n => .sector (BitVec.ofNat 3 n)
  | .channel, n => .channel (BitVec.ofNat 2 n)

/-- The pattern of a row is itself a word, and that word decodes to an operation of the row. -/
theorem decode_pattern_row (i : Instr) :
    (decode (wordIn (tableRow i).space (tableRow i).pattern)).map tableRow = .ok (tableRow i) := by
  cases i with
  | tick => exact (congrArg (fun j => Except.ok (tableRow j)) (decodeEvent_of_op_zero (w := 0x00000) rfl) :)
  | seten => exact (congrArg (fun j => Except.ok (tableRow j)) (decodeEvent_of_op_one (w := 0x10000) rfl) :)
  | setduty => exact (congrArg (fun j => Except.ok (tableRow j)) (decodeEvent_of_op_two (w := 0x20000) rfl) :)
  | _ => rfl

/-- A row of the table is known by its space and its pattern. -/
theorem tableRow_eq_of_space_of_pattern {i j : Instr} (hspace : (tableRow i).space = (tableRow j).space)
    (hpattern : (tableRow i).pattern = (tableRow j).pattern) : tableRow i = tableRow j := by
  have h := decode_pattern_row i
  rw [hspace, hpattern, decode_pattern_row j] at h
  exact (Except.ok.inj h).symm

/-- A word is a word of one row at most. -/
theorem tableRow_eq_of_holds {c : CodeWord} {i j : Instr} (hi : (tableRow i).holds c) (hj : (tableRow j).holds c) :
    tableRow i = tableRow j := by
  obtain ⟨n, hn, hni⟩ := hi
  obtain ⟨m, hm, hmj⟩ := hj
  obtain ⟨hspace, rfl⟩ : (tableRow i).space = (tableRow j).space ∧ n = m := by simpa using hn.symm.trans hm
  refine tableRow_eq_of_space_of_pattern hspace ?_
  rw [← hni, ← hmj, tableRow_mask, tableRow_mask, hspace]

/-- Settles O4: the word is a word of its operation's row, and of no other. -/
theorem decodedWordHasItsRowOnly : Obligations.DecodedWordHasItsRowOnly := by
  intro c i j h
  have hi := row_holds_of_decode h
  exact ⟨fun hj => tableRow_eq_of_holds hj hi, fun hrow => hrow ▸ hi⟩

/-! Scripts. -/

/-- A block repeated `n + 1` times is the block once, and then `n` times (R59). -/
theorem events_rep_succ (n : Nat) (body rest : Script) :
    (Script.rep (n + 1) body rest).events = body.events ++ (Script.rep n body rest).events := by
  rw [Script.events, Script.events, List.replicate_succ, List.flatten_cons, List.append_assoc]

/-- A script that is loaded into an empty queue runs as its events, one step for each. -/
theorem run_load {sc : Script} {s : State} (hs : s.inbox = []) (hwf : ∀ i ∈ sc.events, i.wf) :
    Host.Core.run Sys2Proof.core sc.events.length (s.load sc) = runAll sc.events s := by
  have hempty : { s with inbox := [] } = s := by rw [← hs]
  have hload : s.load sc = { s with inbox := sc.events.map encode ++ [] } := by
    rw [State.load, hs, List.nil_append, List.append_nil]
  rw [hload, queuedWordsRunInOrder sc.events [] s hwf, hempty]

/-- Settles O8: the lines by what each stands for, the blocks by unrolling one repetition, and the run by that of the
queued words (O7). -/
theorem scriptsRunAsWritten : Obligations.ScriptsRunAsWritten := by
  refine ⟨rfl, fun rest => ?_, fun body rest => ⟨rfl, fun n => events_rep_succ n body rest⟩, ?_⟩
  · exact ⟨fun _ => rfl, rfl, rfl, rfl, rfl, rfl, rfl, rfl, rfl, fun _ => rfl, rfl, rfl, fun _ => rfl, rfl⟩
  · rintro sc s _ hs rfl hwf
    exact run_load hs hwf

/-! Fixed words, and the rows of the channel code. -/

/-- Settles O5: each word is computed. -/
theorem wordsOfTheSpecDecode : Obligations.WordsOfTheSpecDecode :=
  ⟨rfl, rfl, rfl, rfl, rfl, rfl, rfl, rfl, rfl, rfl, rfl, rfl⟩

/-- Settles O47: the effect of a channel code is its reply, the leg's compare register. -/
theorem channelRowsGiveTheirCompareOutput : Obligations.ChannelRowsGiveTheirCompareOutput :=
  fun _ hc => ⟨exec_of_wf hc .channelY, exec_of_wf hc .channelB, exec_of_wf hc .channelG⟩

end Sys2Proof.Machine
end

section
/-! PROOFS. The Hall commutator (40_hall_commutator.md): the table and its inverse (R59, R61 to R64), the rows of the Hall
code, and a `TICK` that samples an invalid code (R63, R84, R108). -/

namespace Sys2Proof.Machine

/-! The table. -/

/-- Settles O19: each entry is looked up. -/
theorem hallTableIsTheFixedTable : Obligations.HallTableIsTheFixedTable :=
  ⟨rfl, rfl, rfl, rfl, rfl, rfl, rfl, rfl⟩

/-- The invalid codes are 0 and 7, and no others (R63). -/
theorem halldec_eq_zero_iff : ∀ h : HallCode, halldec h = 0 ↔ h = 0 ∨ h = 7 := by decide

/-- Sector 0 too has its code: the one that a script writes for it (R59). -/
theorem halldec_hallOfSector : ∀ k : SectorCode, k ≠ 7 → halldec (hallOfSector k) = k := by decide

theorem hallOfSector_halldec : ∀ h : HallCode, h ≠ 0 → h ≠ 7 → hallOfSector (halldec h) = h := by decide

/-- The codes of successive sectors are a Gray code, closed at 6 (R64). -/
theorem hallOfSector_xor_next : ∀ k : SectorCode, k ≠ 0 → k ≠ 7 →
    (hallOfSector k ^^^ hallOfSector (if k = 6 then 1 else k + 1)) ∈ ([1, 2, 4] : List HallCode) := by decide

/-- Settles O20: the range of the table, its zeros, the two inversions and the neighbours. -/
theorem hallCodesAndSectorsCorrespond : Obligations.HallCodesAndSectorsCorrespond :=
  ⟨fun h => ⟨halldec_le_six h, halldec_eq_zero_iff h⟩, halldec_hallOfSector, hallOfSector_halldec,
    hallOfSector_xor_next⟩

/-! The rows of the Hall code. -/

theorem hallCode_cases :
    ∀ h : HallCode, h = 0 ∨ h = 1 ∨ h = 2 ∨ h = 3 ∨ h = 4 ∨ h = 5 ∨ h = 6 ∨ h = 7 := by decide

/-- The row of a Hall code replies what `HALLDEC` makes of the code, and does nothing else (R61). -/
theorem effect_decodeHall (h : HallCode) (s : State) :
    effect (decodeHall h) s = { s with reply := .sector (halldec h) } := by
  obtain rfl | rfl | rfl | rfl | rfl | rfl | rfl | rfl := hallCode_cases h <;> rfl

theorem exec_decodeHall {s : State} (hc : s.cfg.wf) (h : HallCode) :
    exec (decodeHall h) s = .next { s with reply := .sector (halldec h) } := by
  rw [exec_of_wf hc, effect_decodeHall]

/-- Settles O45: the row of each code, with the table's entry for it. -/
theorem hallRowsGiveTheirSector : Obligations.HallRowsGiveTheirSector :=
  fun _ hc => ⟨exec_decodeHall hc 0, exec_decodeHall hc 1, exec_decodeHall hc 2, exec_decodeHall hc 3,
    exec_decodeHall hc 4, exec_decodeHall hc 5, exec_decodeHall hc 6, exec_decodeHall hc 7⟩

/-! A `TICK` in no sector. -/

/-- A `TICK` sees of the Hall inputs the sector only (R61, R106). -/
theorem tickEnabled_eq_of_halldec_eq {h h' : HallCode} (heq : halldec h = halldec h') (s : State) :
    tickEnabled h s = tickEnabled h' s := by
  rw [tickEnabled, tickEnabled, heq]

/-- The mixer drives no leg in sector 0 (42_phase_mixer_6step.md R84). -/
theorem mix_sector_zero (pwm : Int) : mix pwm 0 = { y := 0, b := 0, g := 0 } := rfl

/-- Sector 0 is not the reference sector, so it is no entry into it (44_speed_estimator.md R97). -/
theorem speedEdge_sector_zero (prev : SectorCode) : speedEdge prev 0 = false := by
  simp [speedEdge, referenceSector]

theorem speedCount_sector_zero (prev : SectorCode) (cnt : TickWord) : speedCount prev 0 cnt = cnt + 1 := by
  rw [speedCount, speedEdge_sector_zero, if_neg Bool.false_ne_true]

theorem speedPeriod_sector_zero (prev : SectorCode) (cnt per : TickWord) : speedPeriod prev 0 cnt per = per := by
  rw [speedPeriod, speedEdge_sector_zero, if_neg Bool.false_ne_true]

/-- In sector 0 the legs are at the centre, whatever the filtered duty (10_state.md R25 I7). -/
theorem tickEnabled_legsCentred {s : State} (hc : s.cfg.wf) {h : HallCode} (hh : halldec h = 0) :
    (tickEnabled h s).LegsCentred := by
  rw [State.LegsCentred, tickEnabled_cmpY, tickEnabled_cmpB, tickEnabled_cmpG, tickEnabled_cfg, hh, mix_sector_zero]
  exact ⟨compareWord_zero_toNat hc, compareWord_zero_toNat hc, compareWord_zero_toNat hc⟩

theorem legsCentred_setReply {s : State} {r : Reply} : (s.setReply r).LegsCentred ↔ s.LegsCentred := Iff.rfl

/-- Settles O31: both codes decode to sector 0, so that their `TICK`s are one, and in sector 0 the mixer gives no drive
and the speed estimator only counts, while the filter, which does not read the sector, steps as ever. -/
theorem invalidHallCodeGivesNoDrive : Obligations.InvalidHallCodeGivesNoDrive := by
  intro s h hs he hinvalid
  have hh : halldec h = 0 := (halldec_eq_zero_iff h).mpr hinvalid
  have hexec {h' : HallCode} (hh' : halldec h' = 0) :
      exec (.tick h') s = .next ((tickEnabled h s).setReply .nothing) := by
    rw [exec_tick_enabled hs.config he, tickEnabled_eq_of_halldec_eq (hh'.trans hh.symm)]
  refine ⟨_, hexec rfl, hexec rfl, hexec hh, legsCentred_setReply.mpr (tickEnabled_legsCentred hs.config hh),
    ?_, ?_, ?_, ?_⟩
  · rw [State.setReply_lastSector, tickEnabled_lastSector, hh]
  · rw [State.setReply_acc, tickEnabled_acc_toInt hs, filt, filtAcc]
  · rw [State.setReply_speedTickCount, tickEnabled_speedTickCount, hh, speedCount_sector_zero]
  · rw [State.setReply_speedPeriodTicks, tickEnabled_speedPeriodTicks, hh, speedPeriod_sector_zero]

end Sys2Proof.Machine
end

section
/-! PROOFS. The duty filter (41_iir_duty_filter.md): its range (R74, R79), its approach to a constant input and where it
rests (R75, R78), its first step from rest and the shift 0 (R76, R77), and its freezing while Disabled (R71, R72). -/

namespace Sys2Proof.Machine

/-! The range. -/

theorem one_le_two_pow_cast (n : Nat) : (1 : Int) ≤ ((2 ^ n : Nat) : Int) := by
  exact_mod_cast Nat.one_le_two_pow

/-- With `M = 2^n` at most `2^21`, an accumulator in its range stays 32 bits wide when a duty is added to it or taken
from it (R74). -/
theorem fits_32_of_accInRange {n : Nat} {a d : Int} (hn : n ≤ 21) (ha : accInRange n a) (hd : dutyInRange d) :
    (-(2 ^ 31 : Int) ≤ a + d ∧ a + d < 2 ^ 31) ∧ -(2 ^ 31 : Int) ≤ a - d ∧ a - d < 2 ^ 31 := by
  obtain ⟨halo, hahi⟩ := ha
  obtain ⟨hdlo, hdhi⟩ := hd
  have hM : ((2 ^ n : Nat) : Int) ≤ 2097152 := by exact_mod_cast Nat.pow_le_pow_right (by decide : 0 < 2) hn
  omega

/-- Settles O22: the result is in its range and so fits, and the two ways of evaluating it put first a duty, the shifted
accumulator or the input, to an accumulator in its range. -/
theorem filterStaysInRange : Obligations.FilterStaysInRange := by
  intro n a d hn ha hd
  have hstep : accInRange n (filt n a d).1 := accInRange_filt ha hd
  obtain ⟨⟨hlo, hhi⟩, -⟩ := fits_32_of_accInRange hn hstep (by decide : dutyInRange 0)
  obtain ⟨-, hsub⟩ := fits_32_of_accInRange hn ha (dutyInRange_asr ha)
  obtain ⟨hadd, -⟩ := fits_32_of_accInRange hn ha hd
  rw [add_zero] at hlo hhi
  exact ⟨hstep, dutyInRange_asr hstep, hlo, hhi, hsub.1, hsub.2, hadd.1, hadd.2⟩

/-! The approach. -/

/-- The filter rests exactly where its output is its input (R75 (a)). -/
theorem filt_eq_self_iff {n : Nat} {a k : Int} : (filt n a k).1 = a ↔ asr a n = k := by
  simp only [filt, filtAcc]
  omega

/-- From below, the filter rises and stops at `k * M` at the latest (R75 (b)): with `q = asr a n` the new accumulator is
at most `(M - 1) * (q + 1) + k`, and `q + 1 ≤ k`. -/
theorem filt_of_asr_lt {n : Nat} {a k : Int} (h : asr a n < k) :
    a < (filt n a k).1 ∧ (filt n a k).1 ≤ k * ((2 ^ n : Nat) : Int) := by
  obtain ⟨-, hhi⟩ := asr_spec a n
  have hM := one_le_two_pow_cast n
  have hgap : 0 ≤ (((2 ^ n : Nat) : Int) - 1) * (k - (asr a n + 1)) := mul_nonneg (by omega) (by omega)
  simp only [filt, filtAcc]
  constructor <;> linarith

/-- From above, the filter falls and stops at `k * M + M - 1` at the latest (R75 (c)): with `q = asr a n` the new
accumulator is at least `(M - 1) * q + k`, and `k + 1 ≤ q`. -/
theorem filt_of_lt_asr {n : Nat} {a k : Int} (h : k < asr a n) :
    (filt n a k).1 < a ∧ k * ((2 ^ n : Nat) : Int) + ((2 ^ n : Nat) : Int) - 1 ≤ (filt n a k).1 := by
  obtain ⟨hlo, -⟩ := asr_spec a n
  have hM := one_le_two_pow_cast n
  have hgap : 0 ≤ (((2 ^ n : Nat) : Int) - 1) * (asr a n - (k + 1)) := mul_nonneg (by omega) (by omega)
  simp only [filt, filtAcc]
  constructor <;> linarith

/-- Settles O23: where the filter rests, and its two approaches. -/
theorem filterApproachesWithoutOvershoot : Obligations.FilterApproachesWithoutOvershoot :=
  fun _ _ _ => ⟨filt_eq_self_iff, filt_of_asr_lt, filt_of_lt_asr⟩

theorem asr_mono {n : Nat} {a b : Int} (h : a ≤ b) : asr a n ≤ asr b n :=
  Int.ediv_le_ediv (by positivity) h

/-- The accumulator after an Enabled `TICK` is one filter step toward the command (R106). -/
theorem effect_tick_acc_toInt {s : State} (hs : s.Inv) (he : s.enabled = true) (h : HallCode) :
    (effect (.tick h) s).acc.toInt = (filt s.cfg.filterShift s.acc.toInt s.duty).1 := by
  rw [effect_tick_enabled he, State.setReply_acc, tickEnabled_acc_toInt hs]

@[simp] theorem effect_tick_duty (h : HallCode) (s : State) : (effect (.tick h) s).duty = s.duty := by
  rw [State.duty, effect_tick_dutyCommand, State.duty]

/-- The filtered duty after an Enabled `TICK` is the output of that filter step (R106). -/
theorem effect_tick_filteredDuty {s : State} (hs : s.Inv) (he : s.enabled = true) (h : HallCode) :
    (effect (.tick h) s).filteredDuty =
      asr (filt s.cfg.filterShift s.acc.toInt s.duty).1 s.cfg.filterShift := by
  rw [State.filteredDuty, effect_tick_acc_toInt hs he, effect_cfg]

/-- Settles O51: the filter step of the `TICK` rests or approaches, and its output, which is monotone in the
accumulator, goes with it: the ends of the approach, `k * M` and `k * M + M - 1`, still have the output `k`. -/
theorem enabledTickApproachesTheCommand : Obligations.EnabledTickApproachesTheCommand := by
  intro s h hs he m
  refine ⟨effect (.tick h) s, exec_of_wf hs.config _, effect_tick_duty h s,
    fun heq => ?_, fun hlt => ?_, fun hgt => ?_⟩
  · have hrest := filt_eq_self_iff.mpr heq
    rw [effect_tick_filteredDuty hs he, hrest]
    exact ⟨BitVec.eq_of_toInt_eq (by rw [effect_tick_acc_toInt hs he, hrest]), heq⟩
  · obtain ⟨hrise, hend⟩ := filt_of_asr_lt hlt
    have hbelow : asr (filt s.cfg.filterShift s.acc.toInt s.duty).1 s.cfg.filterShift < s.duty + 1 := by
      rw [asr_lt_iff]
      linarith [one_le_two_pow_cast s.cfg.filterShift]
    rw [effect_tick_filteredDuty hs he, effect_tick_acc_toInt hs he]
    exact ⟨hrise, hend, asr_mono hrise.le, Int.lt_add_one_iff.mp hbelow⟩
  · obtain ⟨hfall, hend⟩ := filt_of_lt_asr hgt
    have habove : s.duty ≤ asr (filt s.cfg.filterShift s.acc.toInt s.duty).1 s.cfg.filterShift := by
      rw [le_asr_iff]
      linarith [one_le_two_pow_cast s.cfg.filterShift]
    rw [effect_tick_filteredDuty hs he, effect_tick_acc_toInt hs he]
    exact ⟨hfall, hend, habove, asr_mono hfall.le⟩

/-! The settling. -/

/-- The accumulator is at most `r` away from the interval `[k * M, k * M + M - 1]`, in which the filter rests under the
input `k`. -/
def accWithin (n : Nat) (k : Int) (r : Nat) (a : Int) : Prop :=
  k * ((2 ^ n : Nat) : Int) - r ≤ a ∧ a ≤ k * ((2 ^ n : Nat) : Int) + ((2 ^ n : Nat) : Int) - 1 + r

/-- At distance 0, and only there, the output is the input (R75 (a)). -/
theorem accWithin_zero_iff {n : Nat} {k a : Int} : accWithin n k 0 a ↔ asr a n = k := by
  rw [shiftRoundsTowardMinusInfinity a k n, accWithin, add_mul, one_mul]
  omega

/-- A filter step brings the accumulator nearer by at least 1, or leaves it where it rests (R75). -/
theorem accWithin_filt {n : Nat} {k a : Int} {r : Nat} (h : accWithin n k (r + 1) a) :
    accWithin n k r (filt n a k).1 := by
  have hM := one_le_two_pow_cast n
  obtain ⟨hlo, hhi⟩ := h
  unfold accWithin
  obtain hlt | heq | hgt := lt_trichotomy (asr a n) k
  · obtain ⟨hrise, hend⟩ := filt_of_asr_lt hlt
    omega
  · obtain ⟨hrestlo, hresthi⟩ := accWithin_zero_iff.mpr heq
    rw [filt_eq_self_iff.mpr heq]
    omega
  · obtain ⟨hfall, hend⟩ := filt_of_lt_asr hgt
    omega

/-- Every accumulator in its range is within `2000 * M` of where it rests under a duty: both lie between `-1000 * M` and
`1000 * M + M - 1`. -/
theorem accWithin_of_inRange {n r : Nat} {k a : Int} (ha : accInRange n a) (hk : dutyInRange k)
    (hr : 2000 * 2 ^ n ≤ r) : accWithin n k r a := by
  obtain ⟨halo, hahi⟩ := ha
  obtain ⟨hklo, hkhi⟩ := hk
  have hM : (0 : Int) ≤ ((2 ^ n : Nat) : Int) := Int.natCast_nonneg _
  have hr' : 2000 * ((2 ^ n : Nat) : Int) ≤ r := by exact_mod_cast hr
  have hlow := mul_le_mul_of_nonneg_right hklo hM
  have hhigh := mul_le_mul_of_nonneg_right hkhi hM
  constructor <;> linarith

/-- As many Enabled `TICK`s as the accumulator is away from its rest bring the filtered duty to the command. -/
theorem filteredDuty_effectAll_ticks {s : State} (hs : s.Inv) (he : s.enabled = true) (halls : List HallCode)
    (hnear : accWithin s.cfg.filterShift s.duty halls.length s.acc.toInt) :
    (effectAll (halls.map .tick) s).filteredDuty = s.duty := by
  induction halls generalizing s with
  | nil => exact accWithin_zero_iff.mp hnear
  | cons h halls ih =>
    rw [List.map_cons, effectAll_cons, ih (effect_keeps_inv hs _), effect_tick_duty]
    · rw [effect_enabled, he, modeAfter]
    · rw [effect_tick_acc_toInt hs he, effect_cfg, effect_tick_duty]
      exact accWithin_filt hnear

/-- Settles O34: the accumulator starts within `2000 * M` of its rest, and each `TICK` brings it nearer by at least 1 until it
rests. -/
theorem filteredDutySettlesOnTheCommand : Obligations.FilteredDutySettlesOnTheCommand :=
  fun _ halls hs he hlen => ⟨_, runAll_eq_effectAll hs.config _,
    filteredDuty_effectAll_ticks hs he halls (accWithin_of_inRange hs.acc hs.duty hlen)⟩

/-! From rest, and the shift 0. -/

/-- From rest the first step stores the input (R76). -/
theorem filtAcc_zero (n : Nat) (k : Int) : filtAcc n 0 k = k := by
  simp [filtAcc, asr]

/-- With shift 0 the accumulator is replaced by the input (R77). -/
theorem filtAcc_shift_zero (a k : Int) : filtAcc 0 a k = k := by
  rw [filtAcc, asr_zero]
  omega

/-- Settles O24: the accumulator is the input in both parts, and the two intervals of inputs are those whose floors are
0 and -1. -/
theorem filterFromRest : Obligations.FilterFromRest := by
  refine ⟨fun n k => ?_, fun a k => ?_⟩
  · rw [filt, filtAcc_zero]
    refine ⟨rfl, rfl, fun hlo hhi => ?_, fun hlo hhi => ?_⟩
    · exact (shiftRoundsTowardMinusInfinity k 0 n).mpr (by omega)
    · exact (shiftRoundsTowardMinusInfinity k (-1) n).mpr (by omega)
  · rw [filt, filtAcc_shift_zero, asr_zero]

/-! Disabled. -/

/-- While Disabled no operation samples the Hall inputs (10_state.md R31). -/
theorem sampledBy_false (i : Instr) : sampledBy false i = [] := by
  cases i <;> rfl

/-- Only `SETEN(1)` ends the Disabled state (60_exceptions.md R130). -/
theorem modeAfter_false {i : Instr} (hi : i ≠ .seten true) : modeAfter false i = false := by
  cases i with
  | seten b => simpa [modeAfter] using hi
  | _ => rfl

/-- What operations short of enabling leave of a Disabled block: it stays Disabled, and the filter, the sector history
and the speed registers stay (R71, 44_speed_estimator.md R101). -/
theorem effectAll_disabled {is : List Instr} {s : State} (he : s.enabled = false)
    (his : ∀ i ∈ is, i ≠ .seten true) :
    (effectAll is s).enabled = false ∧ (effectAll is s).acc = s.acc ∧ (effectAll is s).lastSector = s.lastSector ∧
      (effectAll is s).speedTickCount = s.speedTickCount ∧
      (effectAll is s).speedPeriodTicks = s.speedPeriodTicks := by
  induction is generalizing s with
  | nil => exact ⟨he, rfl, rfl, rfl, rfl⟩
  | cons i is ih =>
    obtain ⟨hi, his⟩ := List.forall_mem_cons.mp his
    have hmode : (effect i s).enabled = false := by rw [effect_enabled, he, modeAfter_false hi]
    obtain ⟨hacc, hlast, hcnt, hper⟩ := effect_of_sampledBy_nil (s := s) (i := i) (by rw [he, sampledBy_false])
    rw [effectAll_cons, ← hacc, ← hlast, ← hcnt, ← hper]
    exact ih hmode his

theorem effectAll_keeps_inv {s : State} (hs : s.Inv) (is : List Instr) : (effectAll is s).Inv :=
  effectAll_keeps_relation (R := fun t _ => t.Inv) (fun i _ _ ht => effect_keeps_inv ht i) is (t := s) hs

@[simp] theorem effectAll_cfg (is : List Instr) (s : State) : (effectAll is s).cfg = s.cfg :=
  effectAll_keeps_relation (R := fun t _ => t.cfg = s.cfg) (fun i _ _ ht => (effect_cfg i _).trans ht) is (t := s) rfl

/-- Settles O43: the registers stay through the Disabled operations, and `SETEN(1)`, which leaves the accumulator and
the command, is followed by one filter step. -/
theorem filterIsFrozenWhileDisabled : Obligations.FilterIsFrozenWhileDisabled := by
  intro is s h hs he his
  obtain ⟨hmode, hacc, hlast, hcnt, hper⟩ := effectAll_disabled he his
  have ht : (effectAll is s).Inv := effectAll_keeps_inv hs is
  refine ⟨effectAll is s, runAll_eq_effectAll hs.config is, hmode, hacc, hlast, hcnt, hper,
    _, runAll_eq_effectAll ht.config _, ?_⟩
  calc (effect (.tick h) (effect (.seten true) (effectAll is s))).acc.toInt
      = filtAcc (effectAll is s).cfg.filterShift (effectAll is s).acc.toInt (effectAll is s).duty :=
        effect_tick_acc_toInt (seten_keeps_inv ht true) rfl h
    _ = s.acc.toInt - asr s.acc.toInt s.cfg.filterShift + (effectAll is s).duty := by
        rw [hacc, effectAll_cfg, filtAcc]

end Sys2Proof.Machine
end

section
/-! PROOFS. The phase mixer (42_phase_mixer_6step.md): the table and its balance (R81 to R83), the rows of the sector
code, and the zero drive of the `TICK` after a `SETEN(0)` (R87). -/

namespace Sys2Proof.Machine

/-! The disabled output. -/

/-- A Disabled `TICK` leaves the legs at the centre, which is where the clamp puts no drive (10_state.md R25 I7, R107). -/
theorem tickDisabled_legsCentred {s : State} (hc : s.cfg.wf) : (tickDisabled s).LegsCentred := by
  rw [State.LegsCentred, tickDisabled_cmpY, tickDisabled_cmpB, tickDisabled_cmpG, tickDisabled_cfg]
  exact ⟨compareWord_zero_toNat hc, compareWord_zero_toNat hc, compareWord_zero_toNat hc⟩

/-- Settles O42: whatever has been run, `SETEN(0)` leaves a Disabled state with the stage off, and the `TICK` from
there centres the legs and keeps all else. -/
theorem disablingZeroesTheNextTick : Obligations.DisablingZeroesTheNextTick := by
  intro is s u h hc hu
  have huc : u.cfg.wf := by rwa [runAll_cfg hu]
  have hoff : (effect (.seten false) u).enabled = false := rfl
  have hlegs : (effect (.tick h) (effect (.seten false) u)).LegsCentred := by
    rw [effect_tick_disabled hoff, legsCentred_setReply]
    exact tickDisabled_legsCentred huc
  obtain ⟨hmode, hacc, hlast, hcnt, hper⟩ := effectAll_disabled (is := [.tick h]) hoff (by simp)
  refine ⟨effect (.tick h) (effect (.seten false) u), ?_, hlegs, effect_tick_pwmOutEn h _, hmode, hacc, hlast, hcnt,
    hper, effect_tick_dutyCommand h _⟩
  rw [runAll_append, hu]
  exact runAll_eq_effectAll huc [.seten false, .tick h]

/-! The table. -/

/-- Settles O25: each row is looked up. -/
theorem mixTableIsTheSixStepTable : Obligations.MixTableIsTheSixStepTable :=
  fun _ => ⟨rfl, rfl, rfl, rfl, rfl, rfl, rfl, rfl⟩

/-- The drive of the legs is balanced in every row of the table (R82). -/
theorem mix_sum (pwm : Int) (k : SectorCode) : (mix pwm k).y + (mix pwm k).b + (mix pwm k).g = 0 := by
  unfold mix
  split <;> simp

/-- The codes of the six commutation sectors (30_encoding.md R53). -/
theorem commutationSector_cases :
    ∀ k : SectorCode, k ≠ 0 → k ≠ 7 → k = 1 ∨ k = 2 ∨ k = 3 ∨ k = 4 ∨ k = 5 ∨ k = 6 := by decide

/-- In a commutation sector a nonzero duty drives two legs, and the third is inactive: Y in the sectors 1 and 4, G in 2
and 5, B in 3 and 6 (R82). -/
theorem mix_one_leg_inactive {pwm : Int} (hpwm : pwm ≠ 0) {k : SectorCode} (h0 : k ≠ 0) (h7 : k ≠ 7) :
    ((mix pwm k).y = 0 ∧ (mix pwm k).b ≠ 0 ∧ (mix pwm k).g ≠ 0) ∨
      ((mix pwm k).y ≠ 0 ∧ (mix pwm k).b = 0 ∧ (mix pwm k).g ≠ 0) ∨
      ((mix pwm k).y ≠ 0 ∧ (mix pwm k).b ≠ 0 ∧ (mix pwm k).g = 0) := by
  have hneg : -pwm ≠ 0 := neg_ne_zero.mpr hpwm
  obtain rfl | rfl | rfl | rfl | rfl | rfl := commutationSector_cases k h0 h7
  · exact .inl ⟨rfl, hpwm, hneg⟩
  · exact .inr (.inr ⟨hneg, hpwm, rfl⟩)
  · exact .inr (.inl ⟨hneg, rfl, hpwm⟩)
  · exact .inl ⟨rfl, hneg, hpwm⟩
  · exact .inr (.inr ⟨hpwm, hneg, rfl⟩)
  · exact .inr (.inl ⟨hpwm, rfl, hneg⟩)

/-- The sectors that have an opposite three codes on. -/
theorem firstHalfSector_cases : ∀ k : SectorCode, k.toNat ∈ [1, 2, 3] → k = 1 ∨ k = 2 ∨ k = 3 := by decide

/-- The opposite sector drives the legs as the opposite duty does (R83). -/
theorem mix_opposite_sector (pwm : Int) {k : SectorCode} (hk : k.toNat ∈ [1, 2, 3]) :
    mix pwm (k + 3) = mix (-pwm) k := by
  obtain rfl | rfl | rfl := firstHalfSector_cases k hk <;> simp [mix]

/-- Settles O26: the sum, the inactive leg and the opposite sector, row by row. -/
theorem mixPatternsAreBalanced : Obligations.MixPatternsAreBalanced :=
  fun pwm k => ⟨mix_sum pwm k, fun h0 h7 hpwm => mix_one_leg_inactive hpwm h0 h7, mix_opposite_sector pwm⟩

/-! The rows of the sector code. -/

/-- The row of a sector code replies the pattern that `MIX` makes of the code at the filtered duty, and whether `SPEED`
takes the code for its reference, and does nothing else (R81, 44_speed_estimator.md R96). The codes are the eight words
of three bits, as the Hall codes are. -/
theorem effect_decodeSector (k : SectorCode) (s : State) :
    effect (decodeSector k) s = { s with reply := .pattern (mix s.filteredDuty k) (k == referenceSector) } := by
  obtain rfl | rfl | rfl | rfl | rfl | rfl | rfl | rfl := hallCode_cases k <;> rfl

theorem exec_decodeSector {s : State} (hc : s.cfg.wf) (k : SectorCode) :
    exec (decodeSector k) s = .next { s with reply := .pattern (mix s.filteredDuty k) (k == referenceSector) } := by
  rw [exec_of_wf hc, effect_decodeSector]

/-- Settles O46: the row of each code, with the table's row for it. -/
theorem sectorRowsGiveTheirPattern : Obligations.SectorRowsGiveTheirPattern :=
  fun _ hc => ⟨exec_decodeSector hc 0, exec_decodeSector hc 1, exec_decodeSector hc 2, exec_decodeSector hc 3,
    exec_decodeSector hc 4, exec_decodeSector hc 5, exec_decodeSector hc 6, exec_decodeSector hc 7⟩

end Sys2Proof.Machine
end

section
/-! PROOFS. The clamp and the compare registers (43_pwm_clamper.md): after a `TICK` every leg is in the guard band, off
both rails (R90, R91), and the clamp saturates outside its two thresholds (R90, R92). -/

namespace Sys2Proof.Machine

/-! The legs after a `TICK`. -/

/-- Either branch of `TICK` writes all three compare registers, with what the clamp makes of some phase values
(45_controller_ops.md R106, R107). -/
theorem effect_tick_writes_clamped (hall : HallCode) (s : State) :
    (effect (.tick hall) s).cmpWritten = true ∧ ∃ p : PhaseValues,
      (effect (.tick hall) s).cmpY = compareWord s.cfg p.y ∧ (effect (.tick hall) s).cmpB = compareWord s.cfg p.b ∧
      (effect (.tick hall) s).cmpG = compareWord s.cfg p.g := by
  cases he : s.enabled
  · rw [effect_tick_disabled he]
    exact ⟨tickDisabled_cmpWritten s, ⟨0, 0, 0⟩, tickDisabled_cmpY s, tickDisabled_cmpB s, tickDisabled_cmpG s⟩
  · rw [effect_tick_enabled he]
    exact ⟨tickEnabled_cmpWritten s hall, _, tickEnabled_cmpY s hall, tickEnabled_cmpB s hall, tickEnabled_cmpG s hall⟩

/-- The guard band lies off both rails, since `GUARD` is at least 1 (R91). -/
theorem off_rails_of_inBand {c : Config} (hc : c.wf) {v : CompareWord} (hv : inBand c v) :
    0 < v.toNat ∧ v.toNat < c.period := by
  obtain ⟨-, hguard, hband, -⟩ := hc
  obtain ⟨hlo, hhi⟩ := hv
  omega

/-- Settles O32: a `TICK` writes clamped values, the clamp answers in the guard band, and the band is off the rails. -/
theorem noLegReachesARail : Obligations.NoLegReachesARail := by
  intro s h hc
  obtain ⟨hwritten, p, hy, hb, hg⟩ := effect_tick_writes_clamped h s
  have hband : ∀ v, inBand s.cfg (compareWord s.cfg v) := compareWord_mem hc
  have hrails : ∀ v, 0 < (compareWord s.cfg v).toNat ∧ (compareWord s.cfg v).toNat < s.cfg.period :=
    fun v => off_rails_of_inBand hc (hband v)
  refine ⟨_, exec_of_wf hc _, hwritten, ?_⟩
  rw [hy, hb, hg]
  exact ⟨hband p.y, hband p.b, hband p.g, (hrails p.y).1, (hrails p.y).2, (hrails p.b).1, (hrails p.b).2, hrails p.g⟩

/-! Saturation. -/

/-- Saturation in Mathlib's words, where the order of the two comparisons no longer shows. -/
theorem sat_eq_max_min {x lo hi : Int} (h : lo ≤ hi) : sat x lo hi = max lo (min x hi) := by
  unfold sat
  split
  · omega
  · split <;> omega

theorem sat_mono {x y lo hi : Int} (h : lo ≤ hi) (hxy : x ≤ y) : sat x lo hi ≤ sat y lo hi := by
  rw [sat_eq_max_min h, sat_eq_max_min h]
  exact max_le_max_left lo (min_le_min_right hi hxy)

/-- The low bound is given for the arguments up to it, and for all arguments where it is the only value. -/
theorem sat_eq_low_iff {x lo hi : Int} (h : lo ≤ hi) : sat x lo hi = lo ↔ x ≤ lo ∨ hi ≤ lo := by
  rw [sat_eq_max_min h, max_eq_left_iff, min_le_iff]

/-- The high bound is given for the arguments from it on, and for all arguments where it is the only value. -/
theorem sat_eq_high_iff {x lo hi : Int} (h : lo ≤ hi) : sat x lo hi = hi ↔ hi ≤ x ∨ hi ≤ lo := by
  rw [← (sat_mem h).2.ge_iff_eq, sat_eq_max_min h, le_max_iff, le_min_iff, and_iff_left le_rfl, or_comm]

/-! The thresholds. -/

/-- `CLAMP` gives `GUARD` up to its low threshold, and everywhere where the band has no other value (R90). -/
theorem clamp_eq_guard_iff {c : Config} (hc : c.wf) (v : Int) :
    clamp c v = c.guard ↔ v ≤ c.guard - centreOf c ∨ (c.period : Int) - c.guard ≤ c.guard := by
  obtain ⟨-, -, hband, -⟩ := hc
  rw [clamp, sat_eq_low_iff (by omega), le_sub_iff_add_le]

/-- `CLAMP` gives `PERIOD - GUARD` from its high threshold on, and everywhere where the band has no other value
(R90). -/
theorem clamp_eq_period_sub_guard_iff {c : Config} (hc : c.wf) (v : Int) :
    clamp c v = c.period - c.guard ↔
      (c.period : Int) - c.guard - centreOf c ≤ v ∨ (c.period : Int) - c.guard ≤ c.guard := by
  obtain ⟨-, -, hband, -⟩ := hc
  rw [clamp, sat_eq_high_iff (by omega), sub_le_iff_le_add (c := centreOf c)]

theorem clamp_mono {c : Config} (hc : c.wf) {v v' : Int} (hv : v ≤ v') : clamp c v ≤ clamp c v' := by
  obtain ⟨-, -, hband, -⟩ := hc
  exact sat_mono (by omega) (Int.add_le_add_right hv _)

/-- Between its thresholds `CLAMP` moves the phase value to the centre (R90). -/
theorem clamp_between_thresholds {c : Config} {v : Int} (hlo : c.guard - centreOf c ≤ v)
    (hhi : v ≤ c.period - c.guard - centreOf c) : clamp c v = v + centreOf c :=
  sat_of_mem (sub_le_iff_le_add.mp hlo) (le_sub_iff_add_le.mp hhi)

/-- Settles O27: the thresholds are the bounds of the band moved back from the centre, and the extremes lie outside
them. Where the band has more than one value, nothing else gives its bounds. -/
theorem clampSaturatesAtTheGuardBand : Obligations.ClampSaturatesAtTheGuardBand := by
  intro c v v' hc g p h
  have hlow : ∀ x, x ≤ g - h → clamp c x = g := fun x hx => (clamp_eq_guard_iff hc x).mpr (.inl hx)
  have hhigh : ∀ x, p - g - h ≤ x → clamp c x = p - g :=
    fun x hx => (clamp_eq_period_sub_guard_iff hc x).mpr (.inl hx)
  have hguard : 0 ≤ g := Int.natCast_nonneg _
  refine ⟨(clamp_mem hc v).1, (clamp_mem hc v).2, clamp_mono hc, clamp_between_thresholds, hlow v, hhigh v,
    fun hwide => ?_, clamp_zero hc, hlow _ (by omega), hhigh _ (by omega)⟩
  have hmore : ¬ p - g ≤ g := by omega
  exact ⟨(clamp_eq_guard_iff hc v).trans (or_iff_left hmore),
    (clamp_eq_period_sub_guard_iff hc v).trans (or_iff_left hmore)⟩

end Sys2Proof.Machine
end

section
/-! PROOFS. The speed estimator (44_speed_estimator.md): `SPEED` itself (R97, R99, R100), its registers as a function of
the Hall codes that were sampled (R98), and that the commands do not reach them (R97, 45_controller_ops.md R113). -/

namespace Sys2Proof.Machine

/-! One sample. -/

/-- `cnt'` of `SPEED` in the words of R97: an entry leaves 1. -/
theorem speedCount_eq (prev sector : SectorCode) (cnt : TickWord) :
    speedCount prev sector cnt = if prev ≠ 1 ∧ sector = 1 then 1 else cnt + 1 := by
  simp only [speedCount, speedEdge, referenceSector, Bool.and_eq_true, bne_iff_ne, beq_iff_eq]
  split <;> rfl

/-- Settles O28: the two cases of R97 for each of the two registers. -/
theorem speedCapturesAtEntriesIntoSectorOne : Obligations.SpeedCapturesAtEntriesIntoSectorOne := by
  intro prev sector cnt per
  rw [speedPeriod_eq, speedCount_eq]
  constructor
  · intro hentry
    exact ⟨if_pos hentry, if_pos hentry⟩
  · intro hstay
    rw [if_neg hstay, if_neg hstay]
    exact ⟨rfl, BitVec.toNat_add cnt 1⟩

/-- The registers of `SPEED` (R97). -/
structure SpeedRegisters where
  lastSector  : SectorCode
  tickCount   : TickWord
  periodTicks : TickWord

/-- The registers of `SPEED` in the state (10_state.md R18 to R20). -/
def State.speedRegisters (s : State) : SpeedRegisters := ⟨s.lastSector, s.speedTickCount, s.speedPeriodTicks⟩

/-- What a sampled Hall code does to the registers of `SPEED` (R97). -/
def SpeedRegisters.sample (r : SpeedRegisters) (hall : HallCode) : SpeedRegisters :=
  ⟨halldec hall, speedCount r.lastSector (halldec hall) r.tickCount,
    speedPeriod r.lastSector (halldec hall) r.tickCount r.periodTicks⟩

/-! The registers of `SPEED` are a function of the Hall codes that the Enabled `TICK`s sample. -/

theorem tickEnabled_speedRegisters (hall : HallCode) (s : State) :
    (tickEnabled hall s).speedRegisters = s.speedRegisters.sample hall := by
  simp [State.speedRegisters, SpeedRegisters.sample]

/-- An operation that samples no Hall code leaves the registers of `SPEED`; any other is an Enabled `TICK`. -/
theorem effect_speedRegisters (i : Instr) (s : State) :
    (effect i s).speedRegisters = (sampledBy s.enabled i).foldl SpeedRegisters.sample s.speedRegisters := by
  cases hsampled : sampledBy s.enabled i with
  | nil =>
    obtain ⟨-, hlast, hcnt, hper⟩ := effect_of_sampledBy_nil hsampled
    rw [State.speedRegisters, hlast, hcnt, hper, List.foldl_nil, State.speedRegisters]
  | cons hall rest =>
    obtain ⟨rfl, rfl, he⟩ := sampledBy_eq_cons hsampled
    rw [effect_tick_enabled he]
    exact tickEnabled_speedRegisters hall s

/-- "Counting only Enabled `TICK`s" (R98): of all that was issued, the registers of `SPEED` see the sampled codes. -/
theorem effectAll_speedRegisters (is : List Instr) (s : State) :
    (effectAll is s).speedRegisters = (sampledHalls s.enabled is).foldl SpeedRegisters.sample s.speedRegisters := by
  induction is generalizing s with
  | nil => rfl
  | cons i is ih =>
    rw [effectAll_cons, ih, effect_enabled, effect_speedRegisters, sampledHalls, List.foldl_append]

theorem effectAll_enabled (is : List Instr) (s : State) :
    (effectAll is s).enabled = modeAfterAll s.enabled is := by
  induction is generalizing s with
  | nil => rfl
  | cons i is ih => rw [effectAll_cons, ih, effect_enabled, modeAfterAll]

/-! The commands. -/

/-- A run that answers, answers with the effects of its operations. -/
theorem eq_effectAll_of_runAll {is : List Instr} {s t : State} (h : runAll is s = .next t) : t = effectAll is s := by
  induction is generalizing s with
  | nil =>
    cases h
    rfl
  | cons i is ih =>
    rw [runAll_cons] at h
    split at h
    · exact ih h
    · cases h

/-- Operations that differ only in the operands of `SETDUTY` sample the same Hall codes and leave the same controller
state. -/
theorem sampledHalls_of_commands_differ {is js : List Instr}
    (h : List.Forall₂ (fun i j => i = j ∨ ∃ v w, i = .setduty v ∧ j = .setduty w) is js) (e : Bool) :
    sampledHalls e is = sampledHalls e js ∧ modeAfterAll e is = modeAfterAll e js := by
  induction h generalizing e with
  | nil => exact ⟨rfl, rfl⟩
  | cons hij _ ih =>
    obtain rfl | ⟨v, w, rfl, rfl⟩ := hij
    · obtain ⟨hhalls, hmode⟩ := ih (modeAfter e _)
      exact ⟨congrArg (_ ++ ·) hhalls, hmode⟩
    · exact ih e

/-- Settles O44: both runs sample the same Hall codes, and nothing else reaches the registers of `SPEED`. -/
theorem telemetryIsIndependentOfTheCommand : Obligations.TelemetryIsIndependentOfTheCommand := by
  intro is js s s' t t' hmatch _ he hlast hcnt hper hrun hrun'
  rw [eq_effectAll_of_runAll hrun, eq_effectAll_of_runAll hrun']
  obtain ⟨hhalls, hmode⟩ := sampledHalls_of_commands_differ hmatch s'.enabled
  have hstart : s.speedRegisters = s'.speedRegisters := by
    rw [State.speedRegisters, hlast, hcnt, hper, State.speedRegisters]
  have hend : (effectAll is s).speedRegisters = (effectAll js s').speedRegisters := by
    rw [effectAll_speedRegisters, effectAll_speedRegisters, he, hhalls, hstart]
  refine ⟨congrArg SpeedRegisters.periodTicks hend, congrArg SpeedRegisters.lastSector hend,
    congrArg SpeedRegisters.tickCount hend, ?_⟩
  rw [effectAll_enabled, effectAll_enabled, he, hmode]

/-! The period between two entries. -/

theorem sampledHalls_append (e : Bool) (is js : List Instr) :
    sampledHalls e (is ++ js) = sampledHalls e is ++ sampledHalls (modeAfterAll e is) js := by
  induction is generalizing e with
  | nil => rfl
  | cons i is ih => rw [List.cons_append, sampledHalls, ih, sampledHalls, modeAfterAll, List.append_assoc]

/-- An entry into sector 1 captures the count and restarts it (R97). -/
theorem sample_of_entry {r : SpeedRegisters} {hall : HallCode} (hprev : r.lastSector ≠ 1) (hhall : halldec hall = 1) :
    r.sample hall = ⟨1, 1, r.tickCount⟩ := by
  have hentry : r.lastSector ≠ 1 ∧ halldec hall = 1 := ⟨hprev, hhall⟩
  rw [SpeedRegisters.sample, speedCount_eq, speedPeriod_eq, if_pos hentry, if_pos hentry, hhall]

/-- The sector history is the last sample's. -/
theorem foldl_sample_lastSector {r : SpeedRegisters} {prev : HallCode} (hr : r.lastSector = halldec prev)
    (halls : List HallCode) :
    (halls.foldl SpeedRegisters.sample r).lastSector = halldec (halls.getLastD prev) := by
  induction halls generalizing r prev with
  | nil => exact hr
  | cons hall halls ih =>
    rw [List.foldl_cons, List.getLastD_cons]
    exact ih rfl

/-- As long as no sample is an entry into sector 1, each adds 1 to the count. -/
theorem foldl_sample_tickCount {r : SpeedRegisters} {prev : HallCode} (hr : r.lastSector = halldec prev)
    {halls : List HallCode} (hstay : List.IsChain (fun a b => ¬ (halldec a ≠ 1 ∧ halldec b = 1)) (prev :: halls)) :
    (halls.foldl SpeedRegisters.sample r).tickCount = r.tickCount + BitVec.ofNat 32 halls.length := by
  induction halls generalizing r prev with
  | nil => exact (BitVec.add_zero _).symm
  | cons hall halls ih =>
    obtain ⟨hfirst, hrest⟩ := List.isChain_cons_cons.mp hstay
    have hcount : (r.sample hall).tickCount = r.tickCount + 1 := by
      rw [SpeedRegisters.sample, speedCount_eq, hr, if_neg hfirst]
    rw [List.foldl_cons, ih rfl hrest, hcount, List.length_cons, BitVec.add_assoc, Nat.add_comm, BitVec.ofNat_add]
    rfl

/-- From one entry into sector 1 to the next, over the codes that are sampled (R98): the first leaves the count 1, each
of those between adds 1, and the last captures the count. -/
theorem foldl_sample_between_entries {r : SpeedRegisters} {first last : HallCode} {halls : List HallCode}
    (hprev : r.lastSector ≠ 1) (hfirst : halldec first = 1)
    (hstay : List.IsChain (fun a b => ¬ (halldec a ≠ 1 ∧ halldec b = 1)) (first :: halls))
    (hleft : halldec (halls.getLastD first) ≠ 1) (hlast : halldec last = 1) :
    (first :: (halls ++ [last])).foldl SpeedRegisters.sample r = ⟨1, 1, BitVec.ofNat 32 (halls.length + 1)⟩ := by
  have hopened : (r.sample first).lastSector = halldec first := rfl
  have hcounted : (halls.foldl SpeedRegisters.sample (r.sample first)).tickCount =
      BitVec.ofNat 32 (halls.length + 1) := by
    rw [foldl_sample_tickCount hopened hstay, sample_of_entry hprev hfirst, BitVec.add_comm, BitVec.ofNat_add]
    rfl
  rw [← foldl_sample_lastSector hopened] at hleft
  rw [List.foldl_cons, List.foldl_append, List.foldl_cons, List.foldl_nil, sample_of_entry hleft hlast, hcounted]

/-- Settles O35: the run samples the first code, those between while Enabled, and the last, and the registers of `SPEED`
see these codes alone. -/
theorem periodCountsTicksBetweenEntries : Obligations.PeriodCountsTicksBetweenEntries := by
  intro s first last between hc he hprev hfirst hstay hleft hmode hlast
  rw [List.getLastD_cons] at hleft
  have hsampled : sampledHalls s.enabled (.tick first :: between ++ [.tick last]) =
      first :: (sampledHalls true between ++ [last]) := by
    rw [he, List.cons_append, sampledHalls, modeAfter, sampledHalls_append, hmode]
    rfl
  have hregisters : (effectAll (.tick first :: between ++ [.tick last]) s).speedRegisters =
      ⟨1, 1, BitVec.ofNat 32 ((sampledHalls true between).length + 1)⟩ := by
    rw [effectAll_speedRegisters, hsampled]
    exact foldl_sample_between_entries hprev hfirst hstay hleft hlast
  refine ⟨_, runAll_eq_effectAll hc _, ?_, congrArg SpeedRegisters.tickCount hregisters⟩
  exact (congrArg (·.periodTicks.toNat) hregisters).trans (BitVec.toNat_ofNat _ _)

end Sys2Proof.Machine
end

section
/-! PROOFS. The controller's operations (45_controller_ops.md): `TICK` in its two branches (R106, R107), the writers of
one field each, `SETEN` (R110 to R112), `SETDUTY` (R113, R114) and `GETSPEED` (R115), and that all of them always run
(R116). -/

namespace Sys2Proof.Machine

/-! Every event runs. -/

/-- With only events queued, or nothing, the next word is an event word (20_memory.md R42). -/
theorem takeWord_event {s : State} (hs : ∀ w ∈ s.inbox, ∃ e, w = .event e) : ∃ e, (takeWord s).1 = .event e := by
  cases hw : s.inbox with
  | nil => exact ⟨Config.agentEvent s.drawn, by rw [takeWord_nil hw]⟩
  | cons w rest =>
    rw [takeWord_cons hw]
    exact hs w (by simp [hw])

theorem exec_of_not_wf {s : State} (h : ¬ s.cfg.wf) (i : Instr) : exec i s = .refused .illFormedConfiguration := by
  rw [exec_eq, if_neg h]

/-- Settles O9: only the configuration decides whether an operation runs, and every event word decodes to one. -/
theorem eventsAlwaysHaveANextState : Obligations.EventsAlwaysHaveANextState := by
  refine ⟨fun s i hs _ => ⟨_, exec_of_wf hs.config i⟩, fun s hs hqueue => ?_, fun s i hc => exec_of_not_wf hc i⟩
  obtain ⟨e, he⟩ := takeWord_event hqueue
  exact ⟨_, step_eq_next_iff.mpr ⟨decodeEvent e, by rw [he, decode], hs.config, rfl⟩⟩

/-! The Enabled `TICK`. -/

/-- `cnt'` of `SPEED` as a number: counted from 0 at an entry, and modulo 2^32 (44_speed_estimator.md R97, R100). -/
theorem speedCount_toNat (prev sector : SectorCode) (cnt : TickWord) :
    (speedCount prev sector cnt).toNat = ((if prev ≠ 1 ∧ sector = 1 then 0 else cnt.toNat) + 1) % 2 ^ 32 := by
  rw [speedCount_eq]
  split
  · rfl
  · exact BitVec.toNat_add cnt 1

/-- Settles O29: each register by its stage of the control step: the accumulator does not overflow under the invariants,
and the compare registers hold the clamp's results. -/
theorem enabledTickIsTheControlStep : Obligations.EnabledTickIsTheControlStep := by
  intro s h hs he m acc' p leg
  have hleg (v : Int) : ((compareWord s.cfg v).toNat : Int) = leg v := compareWord_toNat hs.config v
  exact ⟨(tickEnabled h s).setReply .nothing, exec_tick_enabled hs.config he h,
    tickEnabled_acc_toInt hs h, hleg p.y, hleg p.b, hleg p.g, tickEnabled_cmpWritten s h,
    tickEnabled_lastSector s h, speedCount_toNat s.lastSector (halldec h) s.speedTickCount,
    speedPeriod_eq s.lastSector (halldec h) s.speedTickCount s.speedPeriodTicks, rfl,
    tickEnabled_enabled s h, tickEnabled_dutyCommand s h, tickEnabled_pwmOutEn s h, tickEnabled_cfg s h,
    tickEnabled_inbox s h, tickEnabled_drawn s h⟩

/-- The compare registers after an Enabled `TICK` hold the clamped pattern of the sector and of the filtered duty that
the `TICK` leaves (R106). -/
theorem effect_tick_compares {s : State} (hs : s.Inv) (he : s.enabled = true) (h : HallCode) :
    (effect (.tick h) s).cmpY = compareWord s.cfg (mix (effect (.tick h) s).filteredDuty (halldec h)).y ∧
    (effect (.tick h) s).cmpB = compareWord s.cfg (mix (effect (.tick h) s).filteredDuty (halldec h)).b ∧
    (effect (.tick h) s).cmpG = compareWord s.cfg (mix (effect (.tick h) s).filteredDuty (halldec h)).g := by
  rw [effect_tick_filteredDuty hs he, effect_tick_enabled he]
  exact ⟨tickEnabled_cmpY s h, tickEnabled_cmpB s h, tickEnabled_cmpG s h⟩

theorem effect_tick_lastSector {s : State} (he : s.enabled = true) (h : HallCode) :
    (effect (.tick h) s).lastSector = halldec h := by
  rw [effect_tick_enabled he, State.setReply_lastSector, tickEnabled_lastSector]

/-- Settles O48: the Hall row and the sector row run the decoders that the `TICK` ran, the sector row at the filtered
duty that the `TICK` left, and the channel rows are O47. -/
theorem codeRowsExplainATick : Obligations.CodeRowsExplainATick := by
  intro s t h hs he ht
  obtain ⟨-, rfl⟩ := exec_eq_next_iff.mp ht
  have hc : (effect (.tick h) s).cfg.wf := (effect_keeps_inv hs _).config
  obtain ⟨hy, hb, hg⟩ := effect_tick_compares hs he h
  refine ⟨?_, _, _, exec_decodeSector hc _, beq_iff_eq, ?_, ?_, ?_, channelRowsGiveTheirCompareOutput _ hc⟩
  · rw [exec_decodeHall hc, effect_tick_lastSector he]
  · rw [hy, effect_cfg, effect_tick_lastSector he, compareWord_toNat hs.config]
  · rw [hb, effect_cfg, effect_tick_lastSector he, compareWord_toNat hs.config]
  · rw [hg, effect_cfg, effect_tick_lastSector he, compareWord_toNat hs.config]

/-! The Disabled `TICK`. -/

/-- Settles O30: the clamp puts the zero drive at the centre. -/
theorem disabledTickOnlyCentresTheLegs : Obligations.DisabledTickOnlyCentresTheLegs :=
  fun s h hc he => ⟨compareWord s.cfg 0, compareWord s.cfg 0, compareWord s.cfg 0, exec_tick_disabled hc he h,
    compareWord_zero_toNat hc, compareWord_zero_toNat hc, compareWord_zero_toNat hc⟩

/-- A Disabled `TICK` does not see its Hall code (R107). -/
theorem effect_tick_disabled_hall {s : State} (he : s.enabled = false) (h h' : HallCode) :
    effect (.tick h) s = effect (.tick h') s := by
  rw [effect_tick_disabled he, effect_tick_disabled he]

/-- Settles O33, by induction on the matched runs: two matched operations have one effect on a Disabled state, and what
does not enable leaves a Disabled state. -/
theorem hallInputsAreIgnoredWhileDisabled : Obligations.HallInputsAreIgnoredWhileDisabled := by
  intro is js later s he his hmatch
  induction hmatch generalizing s with
  | nil => rfl
  | @cons i j is js hij _ ih =>
    obtain ⟨hi, his⟩ := List.forall_mem_cons.mp his
    have hsame : effect i s = effect j s := by
      obtain rfl | ⟨h, h', rfl, rfl⟩ := hij
      · rfl
      · exact effect_tick_disabled_hall he h h'
    have hmode : (effect i s).enabled = false := by rw [effect_enabled, he, modeAfter_false hi]
    rw [List.cons_append, List.cons_append, runAll_cons, runAll_cons, ih (effect i s) hmode his, hsame]

/-! `SETEN`, `SETDUTY` and `GETSPEED`. -/

/-- Settles O36: the effect of `SETEN` is these three fields. -/
theorem setenWritesTheFlagAndTheStage : Obligations.SetenWritesTheFlagAndTheStage :=
  fun _ b hc => exec_of_wf hc (.seten b)

/-- The last `SETEN` decides: both of its fields are written again (R110). -/
theorem effect_seten_seten (b b' : Bool) (s : State) :
    effect (.seten b) (effect (.seten b') s) = effect (.seten b) s := rfl

/-- Settles O37: of two `SETEN`s the last decides, whether they run or are refused; and an Enabled block has its flag
and, by the invariants, its output stage where `SETEN(1)` puts them. -/
theorem setenIsIdempotent : Obligations.SetenIsIdempotent := by
  constructor
  · intro s b
    rw [runAll_cons, runAll_cons, effect_cfg, effect_seten_seten, runAll_cons]
    split <;> rfl
  · intro s hs he
    have hstage : true = s.pwmOutEn := by rw [hs.stage, he]
    refine ⟨effect (.seten true) s, ?_, he.symm, rfl, rfl, rfl, rfl, rfl, rfl, rfl, rfl, rfl, hstage⟩
    rw [runAll_eq_effectAll hs.config, effectAll_cons, effectAll_cons, effect_seten_seten]
    rfl

/-- Settles O39: the stored command is the saturated integer, whatever its width. -/
theorem setdutyStoresTheClampedCommand : Obligations.SetdutyStoresTheClampedCommand :=
  fun _ v hc => ⟨clampDuty v, exec_of_wf hc (.setduty v), clampDuty_toInt v⟩

/-- Settles O41: the effect of `GETSPEED` is its reply. -/
theorem getspeedReturnsTheCapturedPeriod : Obligations.GetspeedReturnsTheCapturedPeriod :=
  fun _ hc => exec_of_wf hc .getspeed

end Sys2Proof.Machine
end

section
/-! PROOFS. The controller states (60_exceptions.md R130): every operation runs in both, and `SETEN` and reset alone lead
from one to the other. -/

namespace Sys2Proof.Machine

@[simp] theorem takeWord_enabled (s : State) : (takeWord s).2.enabled = s.enabled := by
  cases hw : s.inbox with
  | nil => rw [takeWord_nil hw]
  | cons w rest => rw [takeWord_cons hw]

/-- An operation that changes the controller state is the `SETEN` of the new one (R130). -/
theorem eq_seten_of_enabled_ne {i : Instr} {s : State} (h : (effect i s).enabled ≠ s.enabled) :
    i = .seten (effect i s).enabled := by
  by_cases hi : ∃ b, i = .seten b
  · obtain ⟨b, rfl⟩ := hi
    rw [effect_enabled, modeAfter]
  · exact absurd (effect_of_ne_seten s (not_exists.mp hi)).1 h

/-- Settles O15: whether an operation runs is a matter of the configuration, not of the flag; and taking a word leaves
the flag, so that a step changes it only where its operation does. -/
theorem everyOperationRunsInBothModes : Obligations.EveryOperationRunsInBothModes := by
  have hruns (i : Instr) (s : State) (hc : s.cfg.wf) : ∃ t, exec i s = .next t := ⟨_, exec_of_wf hc i⟩
  refine ⟨fun i s hc => ⟨hruns i { s with enabled := false } hc, hruns i { s with enabled := true } hc, hruns i s hc⟩,
    fun i s t ht hne => ?_, fun s t ht hne => ?_, fun s b hc => ⟨_, exec_of_wf hc _, effect_enabled (.seten b) s⟩,
    fun _ _ => rfl⟩
  · obtain ⟨-, rfl⟩ := exec_eq_next_iff.mp ht
    exact eq_seten_of_enabled_ne hne
  · obtain ⟨i, hdecode, -, rfl⟩ := step_eq_next_iff.mp ht
    rw [← takeWord_enabled s] at hne
    rw [hdecode, ← eq_seten_of_enabled_ne hne]

end Sys2Proof.Machine
end

section
/-! PROOFS. Reset and hazards (70_reset_and_hazards.md): a `SETEN` carried out as two writes (R148), and the order of
bringing up (R143, R146). -/

namespace Sys2Proof.Machine

/-! A `SETEN` in two writes. -/

/-- `TICK` never reads the output stage, so that writing the stage before it and after it is the same (R148). -/
theorem effect_tick_setOutputStage (hall : HallCode) (b : Bool) (s : State) :
    effect (.tick hall) (s.setOutputStage b) = (effect (.tick hall) s).setOutputStage b := by
  cases he : s.enabled
  · rw [effect_tick_disabled he, effect_tick_disabled (s := s.setOutputStage b) he]
    rfl
  · rw [effect_tick_enabled he, effect_tick_enabled (s := s.setOutputStage b) he]
    rfl

/-- `TICK` writes the reply without reading it. -/
theorem effect_tick_setReply (hall : HallCode) (r : Reply) (s : State) :
    effect (.tick hall) (s.setReply r) = effect (.tick hall) s := by
  cases he : s.enabled
  · rw [effect_tick_disabled he, effect_tick_disabled (s := s.setReply r) he]
    rfl
  · rw [effect_tick_enabled he, effect_tick_enabled (s := s.setReply r) he]
    rfl

/-- With the flag written first, the write of the stage moves from after the `TICK` to before it (R148). -/
theorem effect_tick_effect_seten (hall : HallCode) (b : Bool) (s : State) :
    effect (.tick hall) (effect (.seten b) s) = (effect (.tick hall) (s.setEnabledFlag b)).setOutputStage b := by
  have hseten : effect (.seten b) s = ((s.setEnabledFlag b).setOutputStage b).setReply .nothing := rfl
  rw [hseten, effect_tick_setReply, effect_tick_setOutputStage]

/-- With the stage written first, its write moves from before the `TICK` to after it (R148). -/
theorem effect_seten_effect_tick (hall : HallCode) (b : Bool) (s : State) :
    effect (.seten b) (effect (.tick hall) s) = (effect (.tick hall) (s.setOutputStage b)).setEnabledFlag b := by
  rw [effect_tick_setOutputStage]
  rfl

/-- Settles O38: each order moves the write of the stage, which the `TICK` between does not read, across that `TICK`. -/
theorem splitSetenEqualsAnAtomicOrder : Obligations.SplitSetenEqualsAnAtomicOrder := by
  intro s h b hc
  refine ⟨⟨_, exec_of_wf (s := s.setEnabledFlag b) hc _, ?_⟩, ⟨_, exec_of_wf (s := s.setOutputStage b) hc _, ?_⟩⟩
  · rw [← effect_tick_effect_seten]
    exact runAll_eq_effectAll hc [.seten b, .tick h]
  · rw [← effect_seten_effect_tick]
    exact runAll_eq_effectAll hc [.tick h, .seten b]

/-! Bringing up. -/

/-- Settles O18: `SETEN(1)` switches the stage on and writes no leg; a reset leaves the block Disabled, so that a
`TICK` before it centres the legs. -/
theorem enablingBeforeTheFirstTickIsHazardous : Obligations.EnablingBeforeTheFirstTickIsHazardous := by
  intro c n h hc
  have hdisabled : (State.resetWith c n).enabled = false := rfl
  have hlegs : (effect (.tick h) (State.resetWith c n)).LegsCentred := by
    rw [effect_tick_disabled hdisabled, legsCentred_setReply]
    exact tickDisabled_legsCentred hc
  obtain ⟨hwritten, -⟩ := effect_tick_writes_clamped h (State.resetWith c n)
  exact ⟨⟨_, exec_of_wf hc (.seten true), rfl, rfl, rfl, rfl, rfl⟩,
    ⟨_, runAll_eq_effectAll hc [.tick h, .seten true], rfl, hwritten, hlegs⟩⟩

end Sys2Proof.Machine
end
